-- ==== Sys2Proof/Word.lean ====
section
/-! DEFINITION. The widths of spec/00_scope.md section 3 and spec/30_encoding.md: channels, pixels, request words
and result words. Every value is unsigned (section 4), so each is a plain bit vector. -/

namespace Sys2Proof

/-- An 8-bit colour channel (R27), or one byte of a byte buffer (R17). -/
abbrev Byte := BitVec 8

/-- A packed 16-bit 5-6-5 pixel (R26). -/
abbrev Pixel := BitVec 16

/-- A 16-bit-scaled channel of a decode result (R14, R46). -/
abbrev Channel := BitVec 16

/-- A request word: exactly 34 bits, `op = w[33:32]` over a 32-bit payload (R28, R34). -/
abbrev RequestWord := BitVec 34

/-- A result word, 64 bits (R29). -/
abbrev ResultWord := BitVec 64

end Sys2Proof
end

