-- ==== Sys2Proof/Syntax.lean ====
section
/-! DEFINITION. The operations of spec/opcode_table.json (R3, R30), one constructor a row, and the lines of the
assembler notation (R35). -/

namespace Sys2Proof

/-- The three operations. The operands are the unsigned fields of the payload, taken as they are (R33), in the order of
the assembler notation (R35). The ignored bits of R32 are no operand. -/
inductive Instr where
  /-- `ENC r, g, b, a`: pack a GenericColor (R36). -/
  | enc (r g b a : Byte)
  /-- `ENC.RAW p`: pass a RawPacked value through (R37). -/
  | encRaw (p : Pixel)
  /-- `DEC p`: unpack a packed pixel (R46). -/
  | dec (p : Pixel)
deriving DecidableEq, Repr

/-- A literal of the assembler notation, its digits most significant first (R35). -/
inductive Literal where
  | decimal (digits : List (Fin 10))
  /-- Written with a leading `0x`. -/
  | hex (digits : List (Fin 16))
deriving DecidableEq, Repr

/-- A line of the assembler notation (R35). `enc3` is the only pseudo-instruction. -/
inductive AsmLine where
  | enc (r g b a : Literal)
  | enc3 (r g b : Literal)
  | encRaw (p : Literal)
  | dec (p : Literal)
deriving DecidableEq, Repr

end Sys2Proof
end

