-- ==== Sys2Proof/Machine/Literals.lean ====
section
/-! DEFINITION. The value of an assembler literal (R35). -/

namespace Sys2Proof.Machine

/-- The number that digits, most significant first, stand for in a base. -/
def digitsValue (base : Nat) (digits : List Nat) : Nat :=
  digits.foldl (fun v d => v * base + d) 0

/-- The value of a literal, decimal or hexadecimal (R35). A literal with no digit is none. -/
def literalValue : Literal → Option Nat
  | .decimal [] => none
  | .hex [] => none
  | .decimal ds => some (digitsValue 10 (ds.map (fun d => d.val)))
  | .hex ds => some (digitsValue 16 (ds.map (fun d => d.val)))

/-- A literal whose value fits `n` bits, as that field; a literal outside its range is refused, not truncated (R35). -/
def literalField (n : Nat) (l : Literal) : Option (BitVec n) :=
  match literalValue l with
  | some v => if v < 2 ^ n then some (BitVec.ofNat n v) else none
  | none => none

end Sys2Proof.Machine
end

