-- ==== Sys2Proof/WellFormed.lean ====
section
/-! DEFINITION. What the assembler accepts (R35). An `Instr` needs no check of its own: its fields have exactly the
widths of R28, and every value of every operand is legal (R16, R26, R27). -/

namespace Sys2Proof

/-- The literal is in the range of an unsigned field of `n` bits (R35). -/
def Literal.fits (n : Nat) (l : Literal) : Bool :=
  (Machine.literalField n l).isSome

/-- Every literal of the line is in its range: 0..255 for a channel, 0..0xFFFF for a pixel (R35). -/
def AsmLine.wellFormed : AsmLine → Bool
  | .enc r g b a => r.fits 8 && g.fits 8 && b.fits 8 && a.fits 8
  | .enc3 r g b => r.fits 8 && g.fits 8 && b.fits 8
  | .encRaw p => p.fits 16
  | .dec p => p.fits 16

end Sys2Proof
end

