-- ==== Sys2Proof/Decode.lean ====
section
/-! DEFINITION. Request words to operations and back (spec/30_encoding.md R28 to R34). -/

namespace Sys2Proof

/-- Why a request word stands for no operation. -/
inductive DecodeError where
  /-- `op = 0b11`, the reserved code (R31). -/
  | reservedOp
deriving DecidableEq, Repr

/-- The operation code `w[33:32]` (R28, R30). -/
def opOf (w : RequestWord) : BitVec 2 := w.extractLsb' 32 2

/-- The operation a request word asks for: chosen by the operation code alone (R30), its operands cut out of the payload
(R28, R33), the reserved code rejected by name (R31), ignored bits dropped (R32). -/
def decode (w : RequestWord) : Except DecodeError Instr :=
  if opOf w = 0b00#2 then
    .ok (.enc (w.extractLsb' 16 8) (w.extractLsb' 8 8) (w.extractLsb' 0 8) (w.extractLsb' 24 8))
  else if opOf w = 0b01#2 then .ok (.encRaw (w.extractLsb' 0 16))
  else if opOf w = 0b10#2 then .ok (.dec (w.extractLsb' 0 16))
  else .error .reservedOp

/-- The request word of an operation, by the encoding strings of R28; every ignored bit is 0, as the assembler writes
it (R35). -/
def encode : Instr → RequestWord
  | .enc r g b a => 0b00#2 ++ a ++ r ++ g ++ b
  | .encRaw p => 0b01#2 ++ 0#16 ++ p
  | .dec p => 0b10#2 ++ 0#16 ++ p

/-- The bits of a request word that its operation ignores (R32): `w[31:16]` of ENC.RAW and DEC. -/
def ignoredBits (w : RequestWord) : RequestWord :=
  if opOf w = 0b01#2 ∨ opOf w = 0b10#2 then 0x0FFFF0000#34 else 0#34

/-- The request word in the low 34 bits of `nbits` bits numbered as the opcode table numbers them: a request word is
exactly 34 bits (R34), so bits above them are padding of the container (log 13), and bits above `nbits` are 0. -/
def tableWord (nbits w : Nat) : RequestWord := BitVec.ofNat 34 (w % 2 ^ nbits)

/-- The operation the decoder reads from a word numbered as spec/opcode_table.json numbers it. -/
def decodeTableWord (nbits w : Nat) : Option Instr :=
  match decode (tableWord nbits w) with
  | .ok i => some i
  | .error _ => none

end Sys2Proof
end

