-- ==== Sys2Proof/Config.lean ====
section
/-! DEFINITION. What the spec leaves open: the free values (R72, R75, I7, I8) and the LATENCY that `State.reset` is
taken at (R78, D8). Nothing in Lean can evaluate a free value, so no proof rests on what one is (log 6). -/

namespace Sys2Proof.Config

/-- `enc_pix` while `enc_out_valid = 0`: unspecified, a draw (R72). -/
opaque drawEncPix : Nat → Pixel
/-- `dec_r` while `dec_out_valid = 0` (R72). -/
opaque drawDecR : Nat → Channel
/-- `dec_g` while `dec_out_valid = 0` (R72). -/
opaque drawDecG : Nat → Channel
/-- `dec_b` while `dec_out_valid = 0` (R72). -/
opaque drawDecB : Nat → Channel
/-- `dec_a` while `dec_out_valid = 0` (R72, log 17). -/
opaque drawDecA : Nat → Channel
/-- `enc_out_valid` until LATENCY edges after the first reset (R72, R75, I8). -/
opaque drawEncOutValid : Nat → Bool
/-- `dec_out_valid` until LATENCY edges after the first reset (R72, R75, I8). -/
opaque drawDecOutValid : Nat → Bool

/-- The LATENCY of the implementation that `State.reset` stands for. DESIGN CHOICE, unsafe (log 1): the parameter is
open, and every statement quantifies over the field `State.latency` instead. -/
def resetLatency : Nat := 0

end Sys2Proof.Config
end

