-- ==== Sys2Proof/Machine/State.lean ====
section
/-! DEFINITION. The state: the in-flight queues of an implementation with `LATENCY > 0` (R8, R73), the refusal mark
(R57), the values on the input ports (R13 to R15), and what the driver presents next (R10). The codec itself holds no
register, flag, mode, program counter or memory (R7 to R12, R18). -/

namespace Sys2Proof.Machine

/-- The operand of the encoder: the document's tagged variant, chosen by `enc_raw_sel` (R13, R36, R37). -/
inductive EncIn where
  /-- RawPacked: ENC.RAW's operand. -/
  | raw (p : Pixel)
  /-- GenericColor: ENC's operands. -/
  | generic (r g b a : Byte)
deriving DecidableEq, Repr

/-- The four channels of a decode result, ports `dec_r`, `dec_g`, `dec_b`, `dec_a` (R14). -/
structure DecOut where
  r : Channel
  g : Channel
  b : Channel
  a : Channel
deriving DecidableEq, Repr

/-- The values on the block's input ports, under the spec's names (R13, R14, R15). `rst` and the two strobes exist only
when `LATENCY > 0`; with `LATENCY = 0` nothing reads them. Every port carries a defined value (R16). -/
structure Inputs where
  rst : Bool
  encInValid : Bool
  decInValid : Bool
  encRawSel : Bool
  encR : Byte
  encG : Byte
  encB : Byte
  encA : Byte
  encRaw : Pixel
  decPix : Pixel
deriving DecidableEq, Repr

/-- What the driver presents in one step (R10, R15). -/
inductive Stimulus where
  /-- No request, no reset. -/
  | idle
  /-- One request word (R28), standing alone at its edge: `rst` and the other unit's strobe are 0 (log 19). A request at an
  edge that resets, or beside one to the other unit, is a `ports`. -/
  | request (w : RequestWord)
  /-- Values on all the input ports at once, `rst` and both strobes among them: both units may get a request at one
  edge. -/
  | ports (x : Inputs)
deriving DecidableEq, Repr

/-- How far an implementation with `LATENCY > 0` is from its power-up: its outputs and strobes are draws until LATENCY
edges after its first reset (R72, R75, I8). -/
inductive Boot where
  /-- No edge with `rst = 1` has been seen. -/
  | neverReset
  /-- The first such edge has been seen; this many edges are left for which outputs and strobes stay draws. -/
  | wasReset (edgesLeft : Nat)
deriving DecidableEq, Repr

/-- The machine. -/
structure State where
  /-- The open parameter LATENCY; 0 means combinational (R73, R78, D8). No step changes it. -/
  latency : Nat
  /-- The values on the input ports. -/
  inputs : Inputs
  /-- The encoder's in-flight queue, oldest slot first; `none` is an empty slot (R73). -/
  encPipe : List (Option EncIn)
  /-- The decoder's in-flight queue, oldest slot first (R73). -/
  decPipe : List (Option Pixel)
  /-- The refusal mark, which stays set for the rest of the run (R57). -/
  refusalMark : Bool
  /-- The model's own: how far the power-up draws of R72 and R75 still reach (log 7, log 8). -/
  boot : Boot
  /-- The model's own: where the next free values are drawn (log 6). -/
  draws : Nat
  /-- The model's own: what the driver presents at the steps to come (log 3). -/
  driver : List Stimulus
deriving DecidableEq, Repr

/-- Reasons for a fault: none. "The codec has no exception, fault or error state" (R56). -/
inductive Fault
deriving DecidableEq, Repr

/-- Reasons for which a step answers no next state. A request word with the reserved code is no such reason: the model
refuses it, marks the refusal and goes on (R57, log 5). -/
inductive Refusal where
  /-- Raised by `exec` for an operation that has no meaning yet; no operation is left so. Safe. -/
  | notModelled (mnemonic : String)
deriving DecidableEq, Repr

/-- Input ports at 0: the driver's, so the spec gives them no reset value. DESIGN CHOICE, unsafe (log 2). -/
def Inputs.zero : Inputs :=
  { rst := false, encInValid := false, decInValid := false, encRawSel := false, encR := 0, encG := 0, encB := 0,
    encA := 0, encRaw := 0, decPix := 0 }

/-- The state right after reset of an implementation with `LATENCY = n`: queues empty, that is every slot empty, and
strobes at 0 (R71, R72), no refusal (R57). The draws of R75 are over, as they are after any reset but the first
(log 8). -/
def State.resetWith (n : Nat) : State :=
  { latency := n, inputs := Inputs.zero, encPipe := List.replicate n none, decPipe := List.replicate n none,
    refusalMark := false, boot := .wasReset 0, draws := 0, driver := [] }

/-- An implementation with `LATENCY = n` at power-up, before its first `rst`: its outputs and strobes are draws (R72,
R75), so nothing reads what its queues hold. -/
def State.powerUp (n : Nat) : State := { State.resetWith n with boot := .neverReset }

/-- The machine right after reset (R71, R72), at the LATENCY of log 1. -/
def State.reset : State := State.resetWith Config.resetLatency

end Sys2Proof.Machine
end

