-- ==== Sys2Proof/Machine/Operands.lean ====
section
/-! DEFINITION. Operand forms: the encoder's tagged input (R13), the fields of a pixel (R26), the bits ENC keeps of a
channel (R36), the narrowing of a 16-bit channel (R39). -/

namespace Sys2Proof.Machine

/-- The encoder operand the input ports carry: `enc_raw_sel` chooses, and the ports of the other form are not read
(R13, R37). -/
def encOperand (x : Inputs) : EncIn :=
  match x.encRawSel with
  | true => .raw x.encRaw
  | false => .generic x.encR x.encG x.encB x.encA

/-- `R5 = p[15:11]` (R26). -/
def redField (p : Pixel) : BitVec 5 := p.extractLsb' 11 5

/-- `G6 = p[10:5]` (R26). -/
def greenField (p : Pixel) : BitVec 6 := p.extractLsb' 5 6

/-- `B5 = p[4:0]` (R26). -/
def blueField (p : Pixel) : BitVec 5 := p.extractLsb' 0 5

/-- `(c >> 3)[4:0]`: the top five bits of a red or blue channel (R36). -/
def top5 (c : Byte) : BitVec 5 := (c >>> 3).setWidth 5

/-- `(c >> 2)[5:0]`: the top six bits of a green channel (R36). -/
def top6 (c : Byte) : BitVec 6 := (c >>> 2).setWidth 6

/-- The narrowing of a 16-bit channel to the encoder's 8 bits, `c16[15:8]`; done by whatever feeds the encoder (R39,
log 11). -/
def narrow (c : Channel) : Byte := c.extractLsb' 8 8

end Sys2Proof.Machine
end

