-- ==== Sys2Proof/Machine/Codec.lean ====
section
/-! DEFINITION. The two pure functions of the block: the encoder (R36, R37) and the decoder (R46, R47). -/

namespace Sys2Proof.Machine

/-- `(zext_16(R5) << 11) | (zext_16(G6) << 5) | zext_16(B5)` (R36). -/
def packFields (r5 : BitVec 5) (g6 : BitVec 6) (b5 : BitVec 5) : Pixel :=
  (r5.setWidth 16 <<< 11) ||| (g6.setWidth 16 <<< 5) ||| b5.setWidth 16

/-- The encoder: truncate and pack a colour, alpha ignored (R36); return a packed value unchanged (R37). -/
def encodePixel : EncIn → Pixel
  | .raw p => p
  | .generic r g b _ => packFields (top5 r) (top6 g) (top5 b)

/-- Bit replication of a 5-bit field: `v = zext_8(f) << 3`, then `v | (v >> 5)` (R47, log 12). -/
def rep5 (f : BitVec 5) : Byte :=
  let v : Byte := f.setWidth 8 <<< 3
  v ||| (v >>> 5)

/-- Bit replication of a 6-bit field: `v = zext_8(f) << 2`, then `v | (v >> 6)` (R47, log 12). -/
def rep6 (f : BitVec 6) : Byte :=
  let v : Byte := f.setWidth 8 <<< 2
  v ||| (v >>> 6)

/-- 16-bit scaling: `zext_16(x8) | (zext_16(x8) << 8)` (R46). -/
def scale16 (x : Byte) : Channel := x.setWidth 16 ||| (x.setWidth 16 <<< 8)

/-- The decoder: three channels by replication and scaling, alpha always opaque (R46, R49). -/
def decodePixel (p : Pixel) : DecOut :=
  { r := scale16 (rep5 (redField p)), g := scale16 (rep6 (greenField p)), b := scale16 (rep5 (blueField p)),
    a := 0xFFFF#16 }

/-- `{dec_a, dec_r, dec_g, dec_b}` (R29). -/
def decResultWord (d : DecOut) : ResultWord := d.a ++ d.r ++ d.g ++ d.b

/-- `zext_64(enc_pix)` (R29). -/
def encResultWord (p : Pixel) : ResultWord := p.setWidth 64

/-- The result word of a request, a function of its operation and operands alone (R7, R29). -/
def resultWord : Instr → ResultWord
  | .enc r g b a => encResultWord (encodePixel (.generic r g b a))
  | .encRaw p => encResultWord (encodePixel (.raw p))
  | .dec p => decResultWord (decodePixel p)

end Sys2Proof.Machine
end

