-- ==== Sys2Proof/Machine/Ops.lean ====
section
/-! DEFINITION. The named operations over the state: driving the input ports (R28), one rising edge of the clock (R71,
R73), the refusal mark (R57). The block has no exception to take and none to return from (R56, R60, R61), and no memory
to access (R18). -/

namespace Sys2Proof.Machine

/-- The ports as the request word of an ENC drives them: `enc_raw_sel <- 0` and the four channels; `enc_raw` keeps its
value (R28, log 2), and `enc_in_valid = 1` presents the request (R15). That `rst` and `dec_in_valid` are 0 at this edge is the
model's choice: the spec names neither for a request word (DESIGN CHOICE, log 19). -/
def State.driveEnc (s : State) (r g b a : Byte) : State :=
  { s with inputs := { s.inputs with
      rst := false, encInValid := true, decInValid := false, encRawSel := false, encR := r, encG := g, encB := b,
      encA := a } }

/-- The ports as the request word of an ENC.RAW drives them: `enc_raw_sel <- 1` and `enc_raw`; the channels keep their
values (R28, log 2), and `enc_in_valid = 1` presents the request (R15). That `rst` and `dec_in_valid` are 0 at this edge is
the model's choice (DESIGN CHOICE, log 19). -/
def State.driveEncRaw (s : State) (p : Pixel) : State :=
  { s with inputs := { s.inputs with
      rst := false, encInValid := true, decInValid := false, encRawSel := true, encRaw := p } }

/-- The ports as the request word of a DEC drives them: `dec_pix` (R28), and `dec_in_valid = 1` presents the request
(R15). That `rst` and `enc_in_valid` are 0 at this edge is the model's choice (DESIGN CHOICE, log 19). -/
def State.driveDec (s : State) (p : Pixel) : State :=
  { s with inputs := { s.inputs with rst := false, encInValid := false, decInValid := true, decPix := p } }

/-- No request and no reset: the strobes and `rst` at 0, every other port keeping its value (log 2). -/
def State.driveIdle (s : State) : State :=
  { s with inputs := { s.inputs with rst := false, encInValid := false, decInValid := false } }

/-- Values on all the input ports at once. -/
def State.drivePorts (s : State) (x : Inputs) : State := { s with inputs := x }

/-- The last `n` entries of a list. -/
def lastSlots {α : Type} (n : Nat) (slots : List α) : List α := slots.drop (slots.length - n)

/-- One slot enters the queue: what is kept is the last `n` slots (R73). -/
def pushSlot {α : Type} (n : Nat) (pipe : List α) (slot : α) : List α := lastSlots n (pipe ++ [slot])

/-- The slot the encoder takes at an edge with `rst = 0`: the sampled operand when `enc_in_valid = 1`, else empty
(R73). -/
def sampledEnc (x : Inputs) : Option EncIn :=
  match x.encInValid with
  | true => some (encOperand x)
  | false => none

/-- The slot the decoder takes at an edge with `rst = 0` (R73). -/
def sampledDec (x : Inputs) : Option Pixel :=
  match x.decInValid with
  | true => some x.decPix
  | false => none

/-- An edge passes: one edge of power-up draws fewer, once the first reset has been seen (R75). -/
def bootAtEdge : Boot → Boot
  | .neverReset => .neverReset
  | .wasReset edgesLeft => .wasReset (edgesLeft - 1)

/-- An edge with `rst = 1`: where it is the first, LATENCY edges of power-up draws are left; a later one counts as any
edge does (R75, log 7). -/
def bootAtReset (latency : Nat) : Boot → Boot
  | .neverReset => .wasReset latency
  | .wasReset edgesLeft => .wasReset (edgesLeft - 1)

/-- An edge with `rst = 1`: the queues are emptied and no request is accepted (R71, R73). -/
def State.resetEdge (s : State) : State :=
  { s with encPipe := List.replicate s.latency none, decPipe := List.replicate s.latency none,
           boot := bootAtReset s.latency s.boot, draws := s.draws + 1 }

/-- An edge with `rst = 0`: each unit samples its ports (R73). -/
def State.acceptEdge (s : State) : State :=
  { s with encPipe := pushSlot s.latency s.encPipe (sampledEnc s.inputs),
           decPipe := pushSlot s.latency s.decPipe (sampledDec s.inputs), boot := bootAtEdge s.boot,
           draws := s.draws + 1 }

/-- One step of the block on the inputs it is given: with `LATENCY = 0` the block has no clock and holds nothing (R15,
R71); otherwise one rising edge of `clk`, at which reset wins (R71, R73). -/
def State.clockEdge (s : State) : State :=
  if s.latency = 0 then s
  else if s.inputs.rst then s.resetEdge
  else s.acceptEdge

/-- A refused request: the mark is set, and it stays set (R57). -/
def State.markRefusal (s : State) : State := { s with refusalMark := true }

/-- The first stimulus is presented; those after it stay to come. -/
def State.dropStimulus (s : State) : State := { s with driver := s.driver.tail }

end Sys2Proof.Machine
end

