-- ==== Sys2Proof/Machine/Decoder.lean ====
section
/-! DEFINITION. The decoder's operation (spec/41_decoder.md). The result shows on the decoder's ports
(`State.decOut`), timed as the encoder's is (R73). -/

namespace Sys2Proof.Machine

/-- DEC (R46). No flag is written and no exception is raised. -/
def execDec (p : Pixel) (s : State) : Host.Outcome State Fault Refusal :=
  .next (s.driveDec p).clockEdge

end Sys2Proof.Machine
end

