-- ==== Sys2Proof/Machine/Encoder.lean ====
section
/-! DEFINITION. The encoder's two operations (spec/40_encoder.md). Each presents its operands on the encoder's ports for
one step; the result shows on `enc_pix` (`State.encPix`) at once with `LATENCY = 0`, and just after `LATENCY - 1` further
edges otherwise (R73). -/

namespace Sys2Proof.Machine

/-- ENC (R36). No flag is written and no exception is raised. -/
def execEnc (r g b a : Byte) (s : State) : Host.Outcome State Fault Refusal :=
  .next (s.driveEnc r g b a).clockEdge

/-- ENC.RAW (R37). -/
def execEncRaw (p : Pixel) (s : State) : Host.Outcome State Fault Refusal :=
  .next (s.driveEncRaw p).clockEdge

end Sys2Proof.Machine
end

