-- ==== Sys2Proof/Machine/Dispatch.lean ====
section
/-! DEFINITION. The meaning of each operation of spec/opcode_table.json (R30). -/

namespace Sys2Proof.Machine

def exec (i : Instr) (s : State) : Host.Outcome State Fault Refusal :=
  match i with
  | .enc r g b a => Sys2Proof.Machine.execEnc r g b a s
  | .encRaw p => Sys2Proof.Machine.execEncRaw p s
  | .dec p => Sys2Proof.Machine.execDec p s

end Sys2Proof.Machine
end

