-- ==== Sys2Proof/Machine/Present.lean ====
section
/-! DEFINITION. What a step does with what the driver presents: a request word, values on the ports, or nothing
(R10, R15, R28, R57). -/

namespace Sys2Proof.Machine

/-- The driver presents no request: an edge passes at which none is accepted (R73). -/
def presentIdle (s : State) : Host.Outcome State Fault Refusal := .next s.driveIdle.clockEdge

/-- The driver drives all the input ports (R13 to R15). -/
def presentPorts (x : Inputs) (s : State) : Host.Outcome State Fault Refusal := .next (s.drivePorts x).clockEdge

/-- A refused request word: no result, the mark set, the run going on; no port is given a request in this step (R31,
R57, log 5). -/
def refuseRequest (s : State) : Host.Outcome State Fault Refusal := .next s.markRefusal.driveIdle.clockEdge

/-- The driver presents a request word (R28): its operation is executed, or it is refused (R57). -/
def presentRequest (w : RequestWord) (s : State) : Host.Outcome State Fault Refusal :=
  match decode w with
  | .ok i => exec i s
  | .error _ => refuseRequest s

/-- The stimulus of the next step; a driver that has nothing to present presents nothing. -/
def nextStimulus (s : State) : Stimulus := s.driver.headD .idle

/-- One step under a stimulus. -/
def present (x : Stimulus) (s : State) : Host.Outcome State Fault Refusal :=
  match x with
  | .idle => presentIdle s
  | .request w => presentRequest w s
  | .ports v => presentPorts v s

/-- The outcome of a request to the model: a result, or refused, and nothing else (R57). -/
inductive RequestOutcome where
  | result (res : ResultWord)
  | refused
deriving DecidableEq, Repr

/-- The outcome of a request, a function of its request word alone (R7, R29, R57). -/
def requestOutcome (w : RequestWord) : RequestOutcome :=
  match decode w with
  | .ok i => .result (resultWord i)
  | .error _ => .refused

end Sys2Proof.Machine
end

