-- ==== Sys2Proof/Machine/Step.lean ====
section
/-! DEFINITION. One step: a rising edge of `clk` when `LATENCY > 0`, one presentation of inputs when `LATENCY = 0`
(log 4). -/

namespace Sys2Proof.Machine

/-- The block meets the driver's next stimulus. -/
def step (s : State) : Host.Outcome State Fault Refusal := present (nextStimulus s) s.dropStimulus

/-- The request word in the low 34 bits of `w` presented next, before whatever the driver had to present (R10, log 3). -/
def State.withFetchWord (s : State) (nbits w : Nat) : State :=
  { s with driver := .request (tableWord nbits w) :: s.driver }

end Sys2Proof.Machine
end

