-- ==== Sys2Proof/Machine/Assembler.lean ====
section
/-! DEFINITION. The assembler notation (R35): lines to request words, and text to lines. -/

namespace Sys2Proof.Machine

/-- Why the assembler writes no word. -/
inductive AsmError where
  /-- A literal is outside its range, or has no digit (R35). -/
  | literalOutOfRange
  /-- The text is none of the lines of R35. -/
  | notALine
deriving DecidableEq, Repr

/-- The operation of a line whose literals are all in range; the three-operand ENC has alpha 0xFF (R35). -/
def lineInstr : AsmLine → Option Instr
  | .enc r g b a =>
    match literalField 8 r, literalField 8 g, literalField 8 b, literalField 8 a with
    | some r, some g, some b, some a => some (.enc r g b a)
    | _, _, _, _ => none
  | .enc3 r g b =>
    match literalField 8 r, literalField 8 g, literalField 8 b with
    | some r, some g, some b => some (.enc r g b 0xFF#8)
    | _, _, _ => none
  | .encRaw p => (literalField 16 p).map .encRaw
  | .dec p => (literalField 16 p).map .dec

/-- The request word of a line, its ignored bits 0; refused where a literal is outside its range (R35). -/
def assemble (l : AsmLine) : Except AsmError RequestWord :=
  match lineInstr l with
  | some i => .ok (encode i)
  | none => .error .literalOutOfRange

/-- The value of a hexadecimal digit, of either case (log 14). -/
def hexDigit (c : Char) : Option (Fin 16) :=
  if h : '0'.toNat ≤ c.toNat ∧ c.toNat ≤ '9'.toNat then some ⟨c.toNat - 48, by
    have : '9'.toNat = 57 := rfl
    omega⟩
  else if h : 'a'.toNat ≤ c.toNat ∧ c.toNat ≤ 'f'.toNat then some ⟨c.toNat - 87, by
    have : 'f'.toNat = 102 := rfl
    omega⟩
  else if h : 'A'.toNat ≤ c.toNat ∧ c.toNat ≤ 'F'.toNat then some ⟨c.toNat - 55, by
    have : 'F'.toNat = 70 := rfl
    omega⟩
  else none

/-- The value of a decimal digit. -/
def decimalDigit (c : Char) : Option (Fin 10) :=
  match hexDigit c with
  | some d => if h : d.val < 10 then some ⟨d.val, h⟩ else none
  | none => none

/-- Every character read as a digit, or none. -/
def readDigits {α : Type} (digit : Char → Option α) : List Char → Option (List α)
  | [] => some []
  | c :: cs =>
    match digit c, readDigits digit cs with
    | some d, some ds => some (d :: ds)
    | _, _ => none

/-- A literal in decimal, or in hexadecimal after `0x`, of at least one digit (R35). -/
def readLiteral : List Char → Option Literal
  | [] => none
  | ['0', 'x'] => none
  | '0' :: 'x' :: cs => (readDigits hexDigit cs).map .hex
  | cs => (readDigits decimalDigit cs).map .decimal

/-- The text without the blanks at its two ends. -/
def trimBlanks (cs : List Char) : List Char :=
  ((cs.dropWhile (· == ' ')).reverse.dropWhile (· == ' ')).reverse

/-- The pieces of a text between its commas. -/
def splitCommas : List Char → List (List Char)
  | [] => [[]]
  | c :: cs =>
    if c = ',' then [] :: splitCommas cs
    else
      match splitCommas cs with
      | piece :: rest => (c :: piece) :: rest
      | [] => [[c]]

/-- The operands of a line: literals between commas, blanks around them dropped (R35, log 14). -/
def readOperands (cs : List Char) : List (Option Literal) :=
  (splitCommas cs).map (fun piece => readLiteral (trimBlanks piece))

/-- A line of text: a mnemonic, blanks, operands, and a comment after a semicolon (R35, log 14). -/
def readLine (text : List Char) : Option AsmLine :=
  let code := trimBlanks (text.takeWhile (· != ';'))
  let mnemonic := code.takeWhile (· != ' ')
  let operands := readOperands (code.dropWhile (· != ' '))
  if mnemonic = ['E', 'N', 'C'] then
    match operands with
    | [some r, some g, some b, some a] => some (.enc r g b a)
    | [some r, some g, some b] => some (.enc3 r g b)
    | _ => none
  else if mnemonic = ['E', 'N', 'C', '.', 'R', 'A', 'W'] then
    match operands with
    | [some p] => some (.encRaw p)
    | _ => none
  else if mnemonic = ['D', 'E', 'C'] then
    match operands with
    | [some p] => some (.dec p)
    | _ => none
  else none

/-- The request word of a line of text (R35). -/
def assembleText (text : List Char) : Except AsmError RequestWord :=
  match readLine text with
  | some l => assemble l
  | none => .error .notALine

end Sys2Proof.Machine
end

