-- ==== Sys2Proof/Machine/Buffer.lean ====
section
/-! DEFINITION. How whoever stores a pixel lays it out in a byte buffer (R17). The buffer is the driver's, not the
block's: the block has no memory and never calls these (R18, log 10). -/

namespace Sys2Proof.Machine

/-- A byte buffer: the byte at offset `off` is entry `off`. -/
abbrev Buffer := List Byte

/-- `MemRead(off, 1)`; none beyond the buffer's end. -/
def memRead (buf : Buffer) (off : Nat) : Option Byte := buf[off]?

/-- `MemWrite(off, 1, v)`; none beyond the buffer's end. -/
def memWrite (buf : Buffer) (off : Nat) (v : Byte) : Option Buffer :=
  if off < buf.length then some (buf.set off v) else none

/-- `StorePixel(off, p)`: little-endian, bits [7:0] at the lower offset (R17). A pixel that does not lie wholly in the
buffer is not stored at all. -/
def storePixel (buf : Buffer) (off : Nat) (p : Pixel) : Option Buffer :=
  if off + 1 < buf.length then
    (memWrite buf off (p.extractLsb' 0 8)).bind (fun b => memWrite b (off + 1) (p.extractLsb' 8 8))
  else none

/-- `LoadPixel(off)`: the high byte at the next offset, the low byte at the lower one (R17). -/
def loadPixel (buf : Buffer) (off : Nat) : Option Pixel :=
  match memRead buf off, memRead buf (off + 1) with
  | some lo, some hi => some (hi ++ lo)
  | _, _ => none

end Sys2Proof.Machine
end

