-- ==== Sys2Proof/Machine/Instances.lean ====
section
/-! DEFINITION. `N_INSTANCES` blocks side by side: any number of them, sharing nothing (R69, D13, log 9). -/

namespace Sys2Proof.Machine

/-- The instances, in no order that they could observe: they have no identifiers (R69). -/
abbrev Instances := List State

/-- One instance takes a step, the others standing still. -/
def stepAt (k : Nat) (xs : Instances) : Host.Outcome Instances Fault Refusal :=
  match xs[k]? with
  | none => .next xs
  | some s =>
    match step s with
    | .next t => .next (xs.set k t)
    | .fault r => .fault r
    | .refused r => .refused r

/-- Every instance takes a step at once: what each of them answers. -/
def stepAll (xs : Instances) : List (Host.Outcome State Fault Refusal) := xs.map step

end Sys2Proof.Machine
end

