-- ==== Sys2Proof/Machine/Flags.lean ====
section
/-! DEFINITION. The block has no flags, condition codes or predicates (R9). Its only status bits are the strobes of an
implementation with `LATENCY > 0` (R15, R73). -/

namespace Sys2Proof.Machine

/-- What the oldest slot of a queue holds: the slot whose result interval this is (R73). -/
def shownSlot {α : Type} : List (Option α) → Option α
  | [] => none
  | slot :: _ => slot

/-- The power-up draws are over: LATENCY edges have passed since the first reset (R75, I8). -/
def State.settled (s : State) : Bool :=
  match s.boot with
  | .neverReset => false
  | .wasReset edgesLeft => edgesLeft == 0

/-- The port `enc_out_valid`: absent when `LATENCY = 0` (R15); a draw until LATENCY edges after the first reset (R72,
R75); else 1 exactly when the oldest slot holds an accepted request (R73). -/
def State.encOutValid (s : State) : Option Bool :=
  if s.latency = 0 then none
  else if s.settled then some (shownSlot s.encPipe).isSome
  else some (Config.drawEncOutValid s.draws)

/-- The port `dec_out_valid`, as `State.encOutValid`. -/
def State.decOutValid (s : State) : Option Bool :=
  if s.latency = 0 then none
  else if s.settled then some (shownSlot s.decPipe).isSome
  else some (Config.drawDecOutValid s.draws)

end Sys2Proof.Machine
end

