-- ==== Sys2Proof/Machine/Outputs.lean ====
section
/-! DEFINITION. The output ports, computed from the state (R13, R14, R15, R71 to R73). -/

namespace Sys2Proof.Machine

/-- The port `enc_pix`: with `LATENCY = 0` the encoder's function of the inputs of this moment (R15, R71); otherwise the
result of the oldest slot's operand (R73), and a draw where there is none or until LATENCY edges after the first reset
(R72, R75). -/
def State.encPix (s : State) : Pixel :=
  if s.latency = 0 then encodePixel (encOperand s.inputs)
  else
    match s.settled, shownSlot s.encPipe with
    | true, some e => encodePixel e
    | _, _ => Config.drawEncPix s.draws

/-- Draws on all four decoder outputs (R72, log 17). -/
def drawnDecOut (n : Nat) : DecOut :=
  { r := Config.drawDecR n, g := Config.drawDecG n, b := Config.drawDecB n, a := Config.drawDecA n }

/-- The ports `dec_r`, `dec_g`, `dec_b`, `dec_a`, delivered whole (R20); as `State.encPix`. -/
def State.decOut (s : State) : DecOut :=
  if s.latency = 0 then decodePixel s.inputs.decPix
  else
    match s.settled, shownSlot s.decPipe with
    | true, some p => decodePixel p
    | _, _ => drawnDecOut s.draws

/-- What the output ports of the unit that an operation uses show now, as a result word (R29). -/
def State.shownWord (s : State) : Instr → ResultWord
  | .enc _ _ _ _ => encResultWord s.encPix
  | .encRaw _ => encResultWord s.encPix
  | .dec _ => decResultWord s.decOut

/-- The output strobe of the unit that an operation uses (R15). -/
def State.shownValid (s : State) : Instr → Option Bool
  | .enc _ _ _ _ => s.encOutValid
  | .encRaw _ => s.encOutValid
  | .dec _ => s.decOutValid

end Sys2Proof.Machine
end

