-- ==== Sys2Proof/Safety.lean ====
section
/-! DEFINITION. What claims call safe: queues of the right length (R73), a clean run (R57), an output that is a result
(R72). -/

namespace Sys2Proof.Machine

/-- Each queue is the list of the last `LATENCY` slots, no more and no fewer (R73). -/
abbrev State.queuesFull (s : State) : Prop := s.encPipe.length = s.latency ∧ s.decPipe.length = s.latency

/-- The block has seen its first reset (R75). -/
def State.beenReset (s : State) : Bool :=
  match s.boot with
  | .neverReset => false
  | .wasReset _ => true

/-- No more than LATENCY edges of power-up draws are left (R75). -/
def State.bootBounded (s : State) : Bool :=
  match s.boot with
  | .neverReset => true
  | .wasReset edgesLeft => decide (edgesLeft ≤ s.latency)

/-- No request of the run so far was refused (R57). -/
abbrev State.clean (s : State) : Prop := s.refusalMark = false

/-- The port `enc_pix` carries a result and not a draw (R72, R77). -/
abbrev State.encResultReady (s : State) : Prop :=
  s.latency = 0 ∨ (s.settled = true ∧ (shownSlot s.encPipe).isSome = true)

/-- The decoder's outputs carry a result and not draws (R72, R77). -/
abbrev State.decResultReady (s : State) : Prop :=
  s.latency = 0 ∨ (s.settled = true ∧ (shownSlot s.decPipe).isSome = true)

/-- The stimulus does not reset the block; a request word never does (log 19). -/
def Stimulus.noReset : Stimulus → Bool
  | .idle => true
  | .request _ => true
  | .ports x => !x.rst

/-- The slot a stimulus puts into the encoder's queue at an edge (R73): a request word gives a request to one unit only
(log 19). -/
def Stimulus.encSlot : Stimulus → Option EncIn
  | .idle => none
  | .request w =>
    match decode w with
    | .ok (.enc r g b a) => some (.generic r g b a)
    | .ok (.encRaw p) => some (.raw p)
    | .ok (.dec _) => none
    | .error _ => none
  | .ports x => sampledEnc x

/-- The slot a stimulus puts into the decoder's queue at an edge (R73), as `Stimulus.encSlot`. -/
def Stimulus.decSlot : Stimulus → Option Pixel
  | .idle => none
  | .request w =>
    match decode w with
    | .ok (.enc _ _ _ _) => none
    | .ok (.encRaw _) => none
    | .ok (.dec p) => some p
    | .error _ => none
  | .ports x => sampledDec x

/-- The stimulus is a request word that is refused (R31). -/
def Stimulus.isRefused : Stimulus → Bool
  | .idle => false
  | .request w => opOf w == 0b11#2
  | .ports _ => false

end Sys2Proof.Machine
end

