-- ==== Sys2Proof/Certificates/Slice0/Obligations.lean ====
section
/-! DEFINITION. The statements for the provers, one `def Obligations.<Name> : Prop` each; OBLIGATIONS.json lists them.
A run is `Host.Core.run Sys2Proof.core`: so many steps, each under the driver's next stimulus. Every statement holds for
every `LATENCY`, since that is a field of State (log 1); the driver's list is the model's own (log 3). -/

open Sys2Proof Sys2Proof.Machine

/-! ### Encoding (spec/30_encoding.md, spec/95_test_vectors.md) -/

/-- Four request words of 95_test_vectors.md, as they are written there, decode to what is written beside them. -/
def Obligations.DecodeReadsTestVectors : Prop :=
  decode 0x0FF5ADAFF#34 = .ok (.enc 0x5A 0xDA 0xFF 0xFF) ∧ decode 0x078123456#34 = .ok (.enc 0x12 0x34 0x56 0x78) ∧
    decode 0x1DEAD0001#34 = .ok (.encRaw 0x0001) ∧ decode 0x2FFFF5EDF#34 = .ok (.dec 0x5EDF) ∧
    decode 0x3FF5ADAFF#34 = .error .reservedOp ∧ decodeTableWord 40 0x2FFFF5EDF = some (.dec 0x5EDF)

/-- Decode and encode agree both ways: an operation is read back from its word with every operand, and a word that
decodes is the word of its operation but for the bits R32 ignores. -/
def Obligations.DecodeEncodeAgree : Prop :=
  (∀ i : Instr, decode (encode i) = .ok i) ∧
    ∀ (w : RequestWord) (i : Instr), decode w = .ok i → encode i = w &&& ~~~ignoredBits w

/-- R28: the layout of the request word, and the ports it drives. The operand the unit reads does not depend on the ports
its operation does not name. -/
def Obligations.RequestWordDrivesNamedPorts : Prop :=
  ∀ (s : State) (rest : List Stimulus),
    (∀ a r g b : Byte, decode (0b00#2 ++ a ++ r ++ g ++ b) = .ok (.enc r g b a) ∧
      (s.driver = .request (0b00#2 ++ a ++ r ++ g ++ b) :: rest →
        ∃ t, step s = .next t ∧ t.inputs.encRawSel = false ∧ t.inputs.encA = a ∧ t.inputs.encR = r ∧
          t.inputs.encG = g ∧ t.inputs.encB = b ∧ encOperand t.inputs = .generic r g b a)) ∧
    (∀ (x : BitVec 16) (p : Pixel), decode (0b01#2 ++ x ++ p) = .ok (.encRaw p) ∧
      (s.driver = .request (0b01#2 ++ x ++ p) :: rest →
        ∃ t, step s = .next t ∧ t.inputs.encRawSel = true ∧ t.inputs.encRaw = p ∧ encOperand t.inputs = .raw p)) ∧
    (∀ (x : BitVec 16) (p : Pixel), decode (0b10#2 ++ x ++ p) = .ok (.dec p) ∧
      (s.driver = .request (0b10#2 ++ x ++ p) :: rest → ∃ t, step s = .next t ∧ t.inputs.decPix = p)) ∧
    ∀ payload : BitVec 32, decode (0b11#2 ++ payload) = .error .reservedOp

/-- R30: the operation code alone chooses the operation, and no other bit takes part. -/
def Obligations.OperationChosenByOpAlone : Prop :=
  ∀ w : RequestWord,
    (opOf w = 0b00#2 ↔ ∃ r g b a, decode w = .ok (.enc r g b a)) ∧
    (opOf w = 0b01#2 ↔ ∃ p, decode w = .ok (.encRaw p)) ∧
    (opOf w = 0b10#2 ↔ ∃ p, decode w = .ok (.dec p)) ∧
    (opOf w = 0b11#2 ↔ decode w = .error .reservedOp)

/-- R32: the ignored bits of ENC.RAW and DEC, and ENC's alpha, never matter to a result, and every value of them is
accepted. For the ignored bits the whole step is the same. -/
def Obligations.IgnoredBitsNeverMatter : Prop :=
  (∀ (s : State) (rest : List Stimulus) (x y : BitVec 16) (p : Pixel) (op : BitVec 2), op = 0b01#2 ∨ op = 0b10#2 →
    step { s with driver := .request (op ++ x ++ p) :: rest } =
        step { s with driver := .request (op ++ y ++ p) :: rest } ∧
      requestOutcome (op ++ x ++ p) = requestOutcome (op ++ y ++ p) ∧
      ∃ res, requestOutcome (op ++ x ++ p) = .result res) ∧
  ∀ a a' r g b : Byte,
    requestOutcome (0b00#2 ++ a ++ r ++ g ++ b) = requestOutcome (0b00#2 ++ a' ++ r ++ g ++ b) ∧
      ∃ res, requestOutcome (0b00#2 ++ a ++ r ++ g ++ b) = .result res

/-- A request word with the reserved code is refused (R31, R57): the refusal is recorded and no result is produced. That
the machine goes on in a next state, one edge passing at which no unit takes a request, is the model's reading (log 5);
that the outputs of a combinational block stay as they were rests on the ports keeping their values while no request is
presented (log 2). At the port level nothing is refused (R16). -/
def Obligations.ReservedOpIsRefused : Prop :=
  (∀ (s : State) (rest : List Stimulus) (payload : BitVec 32), s.driver = .request (0b11#2 ++ payload) :: rest →
    requestOutcome (0b11#2 ++ payload) = .refused ∧
    ∃ t, step s = .next t ∧ t.refusalMark = true ∧ t.driver = rest ∧
      (s.latency = 0 → t.encPix = s.encPix ∧ t.decOut = s.decOut) ∧
      (0 < s.latency → t.encPipe = pushSlot s.latency s.encPipe none ∧ t.decPipe = pushSlot s.latency s.decPipe none)) ∧
  ∀ (s : State) (rest : List Stimulus) (x : Inputs), s.driver = .ports x :: rest →
    ∃ t, step s = .next t ∧ t.refusalMark = s.refusalMark

/-- A request has a result or is refused, the latter only for the reserved code; a set refusal mark stays set; no request
faults, is stuck or hangs (R57). That the step on a refused word answers a next state with the mark set, so that a run
goes on after it, and that the mark survives an edge with `rst = 1`, is the model's reading (log 5). -/
def Obligations.RequestsHaveResultOrAreRefused : Prop :=
  (∀ w : RequestWord, (requestOutcome w = .refused ↔ opOf w = 0b11#2) ∧
    (opOf w ≠ 0b11#2 → ∃ i, decode w = .ok i ∧ requestOutcome w = .result (resultWord i))) ∧
  (∀ s : State, ∃ t, step s = .next t ∧ t.refusalMark = (s.refusalMark || (nextStimulus s).isRefused)) ∧
  ∀ (s : State) (xs rest : List Stimulus), s.driver = xs ++ rest →
    ∃ u, Sys2Proof.core.run xs.length s = .next u ∧ u.refusalMark = (s.refusalMark || xs.any Stimulus.isRefused)

/-- R29: the result word of a request, a function of the request word alone, and where each port stands in it. -/
def Obligations.ResultWordLayout : Prop :=
  (∀ w w' : RequestWord, decode w = decode w' → requestOutcome w = requestOutcome w') ∧
  (∀ r g b a : Byte, resultWord (.enc r g b a) = (encodePixel (.generic r g b a)).setWidth 64) ∧
  (∀ p : Pixel, resultWord (.encRaw p) = (encodePixel (.raw p)).setWidth 64) ∧
  (∀ p : Pixel,
    (resultWord (.dec p)).extractLsb' 48 16 = (decodePixel p).a ∧
    (resultWord (.dec p)).extractLsb' 32 16 = (decodePixel p).r ∧
    (resultWord (.dec p)).extractLsb' 16 16 = (decodePixel p).g ∧
    (resultWord (.dec p)).extractLsb' 0 16 = (decodePixel p).b) ∧
  ∀ (i : Instr) (s : State), s.latency = 0 → ∃ t, exec i s = .next t ∧ t.shownWord i = resultWord i

/-- R35: a literal is read in decimal or hexadecimal; a line whose literals are in range gives the word of its operation;
a line with a literal of 256 or more for a channel, or of 65536 or more for a pixel, is refused and not truncated; every
word written has its ignored bits 0; the three-operand ENC is the four-operand one with alpha 0xFF. -/
def Obligations.AssemblerWritesRequestWords : Prop :=
  (∀ d : Fin 10, literalValue (.decimal [d]) = some d.val) ∧ (∀ d : Fin 16, literalValue (.hex [d]) = some d.val) ∧
  (∀ (ds : List (Fin 10)) (d : Fin 10) (v : Nat), literalValue (.decimal ds) = some v →
    literalValue (.decimal (ds ++ [d])) = some (10 * v + d.val)) ∧
  (∀ (ds : List (Fin 16)) (d : Fin 16) (v : Nat), literalValue (.hex ds) = some v →
    literalValue (.hex (ds ++ [d])) = some (16 * v + d.val)) ∧
  (∀ (r g b a : Literal) (vr vg vb va : Nat), literalValue r = some vr → literalValue g = some vg →
    literalValue b = some vb → literalValue a = some va → vr < 256 → vg < 256 → vb < 256 → va < 256 →
    assemble (.enc r g b a) = .ok (encode (.enc (BitVec.ofNat 8 vr) (BitVec.ofNat 8 vg) (BitVec.ofNat 8 vb)
      (BitVec.ofNat 8 va)))) ∧
  (∀ (r g b a l : Literal) (v : Nat), l = r ∨ l = g ∨ l = b ∨ l = a → literalValue l = some v → 256 ≤ v →
    assemble (.enc r g b a) = .error .literalOutOfRange) ∧
  (∀ (p : Literal) (v : Nat), literalValue p = some v → v < 65536 →
    assemble (.encRaw p) = .ok (encode (.encRaw (BitVec.ofNat 16 v))) ∧
      assemble (.dec p) = .ok (encode (.dec (BitVec.ofNat 16 v)))) ∧
  (∀ (p : Literal) (v : Nat), literalValue p = some v → 65536 ≤ v →
    assemble (.encRaw p) = .error .literalOutOfRange ∧ assemble (.dec p) = .error .literalOutOfRange) ∧
  (∀ (l : AsmLine) (w : RequestWord), assemble l = .ok w → ∃ i, decode w = .ok i ∧ w &&& ignoredBits w = 0#34) ∧
  ∀ r g b : Literal, assemble (.enc3 r g b) = assemble (.enc r g b (.hex [15, 15]))

/-- The assembler accepts exactly the well-formed lines, and refuses a line in which a literal has no digit, which is the
model's choice (log 14). -/
def Obligations.AssemblerAcceptsWellFormedLines : Prop :=
  (∀ l : AsmLine, l.wellFormed = false → assemble l = .error .literalOutOfRange) ∧
  (∀ l : AsmLine, l.wellFormed = true → ∃ w i, assemble l = .ok w ∧ decode w = .ok i ∧ w &&& ignoredBits w = 0#34) ∧
  (∀ r g b a l : Literal, l = r ∨ l = g ∨ l = b ∨ l = a → l = .decimal [] ∨ l = .hex [] →
    assemble (.enc r g b a) = .error .literalOutOfRange) ∧
  ∀ p : Literal, p = .decimal [] ∨ p = .hex [] →
    assemble (.encRaw p) = .error .literalOutOfRange ∧ assemble (.dec p) = .error .literalOutOfRange

/-! ### The encoder (spec/40_encoder.md) -/

/-- A pixel is its three fields, with no padding (R26). -/
def Obligations.PixelIsItsThreeFields : Prop :=
  (∀ p : Pixel, packFields (redField p) (greenField p) (blueField p) = p ∧
    p = redField p ++ greenField p ++ blueField p) ∧
  ∀ (r5 : BitVec 5) (g6 : BitVec 6) (b5 : BitVec 5),
    redField (packFields r5 g6 b5) = r5 ∧ greenField (packFields r5 g6 b5) = g6 ∧ blueField (packFields r5 g6 b5) = b5

/-- R36: ENC completes in every state; its result is the three truncated channels, whatever the alpha, shown at once by
a combinational encoder and accepted into the queue of a pipelined one at an edge with `rst = 0` (R73). It writes no
flag. -/
def Obligations.EncPacksByTruncation : Prop :=
  ∀ (s : State) (r g b a : Byte),
    decode (0b00#2 ++ a ++ r ++ g ++ b) = .ok (.enc r g b a) ∧
    encodePixel (.generic r g b a) = r.extractLsb' 3 5 ++ g.extractLsb' 2 6 ++ b.extractLsb' 3 5 ∧
    encodePixel (.generic 0x5A 0xDA 0xFF a) = 0x5EDF#16 ∧
    encodePixel (.generic 0 0 0 a) = 0x0000#16 ∧ encodePixel (.generic 0xFF 0xFF 0xFF a) = 0xFFFF#16 ∧
    ∃ t, exec (.enc r g b a) s = .next t ∧ t.refusalMark = s.refusalMark ∧
      (s.latency = 0 → t.encPix = r.extractLsb' 3 5 ++ g.extractLsb' 2 6 ++ b.extractLsb' 3 5) ∧
      (0 < s.latency → t.inputs.rst = false → t.encPipe = pushSlot s.latency s.encPipe (some (.generic r g b a)))

/-- R37: ENC.RAW completes in every state and returns its operand unchanged; the four channel ports are not read, as
`enc_raw` is not by ENC; a pipelined encoder accepts it at an edge with `rst = 0` (R73). It writes no flag. -/
def Obligations.EncRawReturnsItsOperand : Prop :=
  ∀ (s : State) (p : Pixel),
    (∀ x : BitVec 16, decode (0b01#2 ++ x ++ p) = .ok (.encRaw p)) ∧
    encodePixel (.raw p) = p ∧
    (∀ x : Inputs, x.encRawSel = true → encOperand x = .raw x.encRaw) ∧
    (∀ x : Inputs, x.encRawSel = false → encOperand x = .generic x.encR x.encG x.encB x.encA) ∧
    ∃ t, exec (.encRaw p) s = .next t ∧ t.refusalMark = s.refusalMark ∧
      (s.latency = 0 → t.encPix = p) ∧
      (0 < s.latency → t.inputs.rst = false → t.encPipe = pushSlot s.latency s.encPipe (some (.raw p)))

/-- R38: the three shifted fields are within their ranges and disjoint, so the OR is the sum and loses nothing, and the
result's bits are exactly the kept bits of the channels. -/
def Obligations.EncoderFieldsAreDisjoint : Prop :=
  ∀ r g b a : Byte,
    let hi := (top5 r).setWidth 16 <<< 11
    let mid := (top6 g).setWidth 16 <<< 5
    let lo := (top5 b).setWidth 16
    hi ≤ 0xF800#16 ∧ mid ≤ 0x07E0#16 ∧ lo ≤ 0x001F#16 ∧ hi &&& 0xF800#16 = hi ∧ mid &&& 0x07E0#16 = mid ∧
      lo &&& 0x001F#16 = lo ∧ hi &&& mid = 0#16 ∧ hi &&& lo = 0#16 ∧ mid &&& lo = 0#16 ∧
      (encodePixel (.generic r g b a)).toNat = hi.toNat + mid.toNat + lo.toNat ∧
      (encodePixel (.generic r g b a)).extractLsb' 11 5 = r.extractLsb' 3 5 ∧
      (encodePixel (.generic r g b a)).extractLsb' 5 6 = g.extractLsb' 2 6 ∧
      (encodePixel (.generic r g b a)).extractLsb' 0 5 = b.extractLsb' 3 5

/-- R41: the alpha has no effect; every packed value is the result of exactly 256 colour triples, those that agree with
it on the kept bits, times 256 alphas; ENC is onto. -/
def Obligations.EncoderPreimages : Prop :=
  (∀ r g b a a' : Byte, encodePixel (.generic r g b a) = encodePixel (.generic r g b a')) ∧
  (∀ (p : Pixel) (r g b a : Byte), encodePixel (.generic r g b a) = p ↔
    (r.extractLsb' 3 5 = redField p ∧ g.extractLsb' 2 6 = greenField p ∧ b.extractLsb' 3 5 = blueField p)) ∧
  (∀ (p : Pixel) (a : Byte),
    Set.ncard { c : Byte × Byte × Byte | encodePixel (.generic c.1 c.2.1 c.2.2 a) = p } = 256) ∧
  (∀ p : Pixel,
    Set.ncard { c : Byte × Byte × Byte × Byte | encodePixel (.generic c.1 c.2.1 c.2.2.1 c.2.2.2) = p } = 256 * 256) ∧
  ∀ p : Pixel, ∃ r g b a : Byte, encodePixel (.generic r g b a) = p

/-- R42: the short-circuit agrees with the generic path on decoded values, as functions and as two executions of a
combinational block. -/
def Obligations.ShortCircuitAgreesWithGenericPath : Prop :=
  (∀ (p : Pixel) (a : Byte), encodePixel (.raw p) =
    encodePixel (.generic (narrow (decodePixel p).r) (narrow (decodePixel p).g) (narrow (decodePixel p).b) a)) ∧
  ∀ (s s' : State) (p : Pixel) (a : Byte), s.latency = 0 → s'.latency = 0 →
    ∃ t t', exec (.encRaw p) s = .next t ∧
      exec (.enc (narrow (decodePixel p).r) (narrow (decodePixel p).g) (narrow (decodePixel p).b) a) s' = .next t' ∧
      t.encPix = t'.encPix

/-- R43: each field of the result is non-decreasing in its own channel and independent of the others; changing one
channel changes no bit outside its field. -/
def Obligations.EncoderLanesAreMonotone : Prop :=
  ∀ r r' g g' b b' a : Byte,
    (r ≤ r' → (encodePixel (.generic r g b a)).extractLsb' 11 5 ≤ (encodePixel (.generic r' g b a)).extractLsb' 11 5) ∧
    (g ≤ g' → (encodePixel (.generic r g b a)).extractLsb' 5 6 ≤ (encodePixel (.generic r g' b a)).extractLsb' 5 6) ∧
    (b ≤ b' → (encodePixel (.generic r g b a)).extractLsb' 0 5 ≤ (encodePixel (.generic r g b' a)).extractLsb' 0 5) ∧
    (encodePixel (.generic r g b a) &&& ~~~0xF800#16 = encodePixel (.generic r' g b a) &&& ~~~0xF800#16) ∧
    (encodePixel (.generic r g b a) &&& ~~~0x07E0#16 = encodePixel (.generic r g' b a) &&& ~~~0x07E0#16) ∧
    (encodePixel (.generic r g b a) &&& ~~~0x001F#16 = encodePixel (.generic r g b' a) &&& ~~~0x001F#16)

/-! ### The decoder (spec/41_decoder.md) -/

/-- R46, R50: DEC completes in every state, for every pixel; its result is the replicated and duplicated fields with
opaque alpha, shown at once by a combinational decoder and accepted into the queue of a pipelined one at an edge with
`rst = 0` (R73). It writes no flag. -/
def Obligations.DecUnpacksByReplication : Prop :=
  ∀ (s : State) (p : Pixel),
    let r8 : Byte := p.extractLsb' 11 5 ++ p.extractLsb' 13 3
    let g8 : Byte := p.extractLsb' 5 6 ++ p.extractLsb' 9 2
    let b8 : Byte := p.extractLsb' 0 5 ++ p.extractLsb' 2 3
    (∀ x : BitVec 16, decode (0b10#2 ++ x ++ p) = .ok (.dec p)) ∧
    decodePixel p = { r := r8 ++ r8, g := g8 ++ g8, b := b8 ++ b8, a := 0xFFFF#16 } ∧
    decodePixel 0x0000#16 = { r := 0, g := 0, b := 0, a := 0xFFFF#16 } ∧
    decodePixel 0xFFFF#16 = { r := 0xFFFF#16, g := 0xFFFF#16, b := 0xFFFF#16, a := 0xFFFF#16 } ∧
    decodePixel 0x5EDF#16 = { r := 0x5A5A#16, g := 0xDBDB#16, b := 0xFFFF#16, a := 0xFFFF#16 } ∧
    ∃ t, exec (.dec p) s = .next t ∧ t.refusalMark = s.refusalMark ∧
      (s.latency = 0 → t.decOut = { r := r8 ++ r8, g := g8 ++ g8, b := b8 ++ b8, a := 0xFFFF#16 }) ∧
      (0 < s.latency → t.inputs.rst = false → t.decPipe = pushSlot s.latency s.decPipe (some p))

/-- R47: bit replication is the field followed by its own top bits; and of the right-shift counts 0 to 8, exactly those
the spec lists keep the round trip, while only 5 and 6 fill the vacated bits with the field's top bits. -/
def Obligations.ReplicationFillsVacatedBits : Prop :=
  (∀ f : BitVec 5, rep5 f = f ++ f.extractLsb' 2 3 ∧
    rep5 f = ((f.setWidth 8 <<< 3 : Byte) ||| ((f.setWidth 8 <<< 3 : Byte) >>> 5))) ∧
  (∀ f : BitVec 6, rep6 f = f ++ f.extractLsb' 4 2 ∧
    rep6 f = ((f.setWidth 8 <<< 2 : Byte) ||| ((f.setWidth 8 <<< 2 : Byte) >>> 6))) ∧
  (∀ k : Fin 9, (∀ f : BitVec 5,
      top5 ((f.setWidth 8 <<< 3 : Byte) ||| ((f.setWidth 8 <<< 3 : Byte) >>> k.val)) = f) ↔
    k.val = 0 ∨ k.val = 5 ∨ k.val = 6 ∨ k.val = 7 ∨ k.val = 8) ∧
  (∀ k : Fin 9, (∀ f : BitVec 6,
      top6 ((f.setWidth 8 <<< 2 : Byte) ||| ((f.setWidth 8 <<< 2 : Byte) >>> k.val)) = f) ↔
    k.val = 0 ∨ k.val = 6 ∨ k.val = 7 ∨ k.val = 8) ∧
  (∀ k : Fin 9, (∀ f : BitVec 5,
      ((f.setWidth 8 <<< 3 : Byte) ||| ((f.setWidth 8 <<< 3 : Byte) >>> k.val)) = f ++ f.extractLsb' 2 3) ↔ k.val = 5) ∧
  ∀ k : Fin 9, (∀ f : BitVec 6,
      ((f.setWidth 8 <<< 2 : Byte) ||| ((f.setWidth 8 <<< 2 : Byte) >>> k.val)) = f ++ f.extractLsb' 4 2) ↔ k.val = 6

/-- R48: the ORs of the decoder combine disjoint bits and equal sums; the scaling is the product with 0x101. -/
def Obligations.DecoderArithmeticLosesNothing : Prop :=
  (∀ f : BitVec 5,
    let v : Byte := f.setWidth 8 <<< 3
    v ≤ 0xF8#8 ∧ v &&& 0x07#8 = 0#8 ∧ v >>> 5 ≤ 0x07#8 ∧ (v >>> 5) &&& 0xF8#8 = 0#8 ∧
      (rep5 f).toNat = v.toNat + (v >>> 5).toNat) ∧
  (∀ f : BitVec 6,
    let v : Byte := f.setWidth 8 <<< 2
    v ≤ 0xFC#8 ∧ v &&& 0x03#8 = 0#8 ∧ v >>> 6 ≤ 0x03#8 ∧ (v >>> 6) &&& 0xFC#8 = 0#8 ∧
      (rep6 f).toNat = v.toNat + (v >>> 6).toNat) ∧
  ∀ x : Byte, (scale16 x).toNat = x.toNat * 0x101 ∧ x.toNat * 0x101 ≤ 0xFFFF

/-- R49: `dec_a` is 0xFFFF for every input, in every state whose decoder outputs carry a result. -/
def Obligations.AlphaIsAlwaysOpaque : Prop :=
  (∀ p : Pixel, (decodePixel p).a = 0xFFFF#16) ∧
  ∀ s : State, s.decResultReady → s.decOut.a = 0xFFFF#16

/-- R51: the decoder's channels carry the fields in their top bits, so it is injective and has 65536 distinct
results. -/
def Obligations.DecoderIsInjective : Prop :=
  (∀ p : Pixel, (decodePixel p).r.extractLsb' 11 5 = redField p ∧ (decodePixel p).g.extractLsb' 10 6 = greenField p ∧
    (decodePixel p).b.extractLsb' 11 5 = blueField p) ∧
  Function.Injective (fun p : Pixel => ((decodePixel p).r, (decodePixel p).g, (decodePixel p).b)) ∧
  Set.ncard (Set.range decodePixel) = 65536

/-- R52: round-trip stability, through either byte of the channels and with any alpha. -/
def Obligations.RoundTripIsStable : Prop :=
  (∀ f : BitVec 5, (rep5 f).extractLsb' 3 5 = f) ∧ (∀ f : BitVec 6, (rep6 f).extractLsb' 2 6 = f) ∧
  (∀ (p : Pixel) (a : Byte), encodePixel (.generic ((decodePixel p).r.extractLsb' 8 8)
    ((decodePixel p).g.extractLsb' 8 8) ((decodePixel p).b.extractLsb' 8 8) a) = p) ∧
  ∀ (p : Pixel) (a : Byte), encodePixel (.generic ((decodePixel p).r.extractLsb' 0 8)
    ((decodePixel p).g.extractLsb' 0 8) ((decodePixel p).b.extractLsb' 0 8) a) = p

/-- R53: the masked channels of the decoded encoding equal those of the colour, and exact equality fails for the spec's
example. -/
def Obligations.PrecisionLossIsBounded : Prop :=
  (∀ r g b a : Byte,
    let d := decodePixel (encodePixel (.generic r g b a))
    d.r.extractLsb' 8 8 &&& 0xF8#8 = r &&& 0xF8#8 ∧ d.g.extractLsb' 8 8 &&& 0xFC#8 = g &&& 0xFC#8 ∧
      d.b.extractLsb' 8 8 &&& 0xF8#8 = b &&& 0xF8#8) ∧
  ∀ a : Byte, narrow (decodePixel (encodePixel (.generic 0x5A 0xDA 0xFF a))).g = 0xDB#8

/-- R54: decoding an encoding is stable under encoding again. -/
def Obligations.RequantisingIsIdempotent : Prop :=
  ∀ r g b a a' : Byte,
    let d := decodePixel (encodePixel (.generic r g b a))
    encodePixel (.generic (narrow d.r) (narrow d.g) (narrow d.b) a') = encodePixel (.generic r g b a) ∧
      decodePixel (encodePixel (.generic (narrow d.r) (narrow d.g) (narrow d.b) a')) = d

/-- R55: the two bytes of a channel are equal to the replicated field, the replication tables are the spec's, and
replication differs from rounding exactly at the values the spec lists. -/
def Obligations.ReplicationTables : Prop :=
  (∀ p : Pixel,
    (decodePixel p).r.extractLsb' 8 8 = rep5 (redField p) ∧ (decodePixel p).r.extractLsb' 0 8 = rep5 (redField p) ∧
    (decodePixel p).g.extractLsb' 8 8 = rep6 (greenField p) ∧ (decodePixel p).g.extractLsb' 0 8 = rep6 (greenField p) ∧
    (decodePixel p).b.extractLsb' 8 8 = rep5 (blueField p) ∧ (decodePixel p).b.extractLsb' 0 8 = rep5 (blueField p)) ∧
  (List.range 32).map (fun n => (rep5 (BitVec.ofNat 5 n)).toNat) =
    [0x00, 0x08, 0x10, 0x18, 0x21, 0x29, 0x31, 0x39, 0x42, 0x4A, 0x52, 0x5A, 0x63, 0x6B, 0x73, 0x7B,
     0x84, 0x8C, 0x94, 0x9C, 0xA5, 0xAD, 0xB5, 0xBD, 0xC6, 0xCE, 0xD6, 0xDE, 0xE7, 0xEF, 0xF7, 0xFF] ∧
  (List.range 64).map (fun n => (rep6 (BitVec.ofNat 6 n)).toNat) =
    [0x00, 0x04, 0x08, 0x0C, 0x10, 0x14, 0x18, 0x1C, 0x20, 0x24, 0x28, 0x2C, 0x30, 0x34, 0x38, 0x3C,
     0x41, 0x45, 0x49, 0x4D, 0x51, 0x55, 0x59, 0x5D, 0x61, 0x65, 0x69, 0x6D, 0x71, 0x75, 0x79, 0x7D,
     0x82, 0x86, 0x8A, 0x8E, 0x92, 0x96, 0x9A, 0x9E, 0xA2, 0xA6, 0xAA, 0xAE, 0xB2, 0xB6, 0xBA, 0xBE,
     0xC3, 0xC7, 0xCB, 0xCF, 0xD3, 0xD7, 0xDB, 0xDF, 0xE3, 0xE7, 0xEB, 0xEF, 0xF3, 0xF7, 0xFB, 0xFF] ∧
  (List.range 32).filter (fun n => (rep5 (BitVec.ofNat 5 n)).toNat != (n * 255 + 15) / 31) = [3, 7, 24, 28] ∧
  (List.range 64).filter (fun n => (rep6 (BitVec.ofNat 6 n)).toNat != (n * 255 + 31) / 63) =
    [11, 12, 13, 14, 15, 48, 49, 50, 51, 52]

/-- The narrowing of a 16-bit channel is its bits [15:8], and on every decoder output the choice of byte changes nothing
(R39). -/
def Obligations.NarrowingTakesTheHighByte : Prop :=
  (∀ c : Channel, (narrow c).toNat = c.toNat / 256) ∧
  ∀ p : Pixel, narrow (decodePixel p).r = (decodePixel p).r.extractLsb' 0 8 ∧
    narrow (decodePixel p).g = (decodePixel p).g.extractLsb' 0 8 ∧
    narrow (decodePixel p).b = (decodePixel p).b.extractLsb' 0 8

/-! ### The machine (spec/10_state.md, spec/60_exceptions.md, spec/70_reset_and_hazards.md) -/

/-- The frame of the three operations. Each completes in every state; the ports it does not name keep their values (log
2), the refusal mark, LATENCY and the driver's list stay; a combinational block's other outputs stay (log 2), and the unit
of a pipelined block that is given the request accepts it, the other taking an empty slot (R73), because `rst` and the
other unit's strobe are 0 at that edge (log 19). The power-up field, which an edge counts down,
and the draw counter are the model's own (log 8, log 6). -/
def Obligations.OperationsChangeOnlyTheirUnit : Prop :=
  ∀ (i : Instr) (s : State), ∃ t, exec i s = .next t ∧
    t.latency = s.latency ∧ t.refusalMark = s.refusalMark ∧ t.driver = s.driver ∧
    t.inputs.rst = false ∧
    (s.latency = 0 → t.encPipe = s.encPipe ∧ t.decPipe = s.decPipe ∧ t.draws = s.draws ∧ t.boot = s.boot) ∧
    (0 < s.latency → t.draws = s.draws + 1 ∧ t.boot = bootAtEdge s.boot) ∧
    match i with
    | .enc r g b a =>
      t.inputs = { s.inputs with rst := false, encInValid := true, decInValid := false, encRawSel := false, encA := a,
                                 encR := r, encG := g, encB := b } ∧
        (s.latency = 0 → t.decOut = s.decOut) ∧ (0 < s.latency →
          t.encPipe = pushSlot s.latency s.encPipe (some (.generic r g b a)) ∧
            t.decPipe = pushSlot s.latency s.decPipe none)
    | .encRaw p =>
      t.inputs = { s.inputs with rst := false, encInValid := true, decInValid := false, encRawSel := true,
                                 encRaw := p } ∧
        (s.latency = 0 → t.decOut = s.decOut) ∧ (0 < s.latency →
          t.encPipe = pushSlot s.latency s.encPipe (some (.raw p)) ∧ t.decPipe = pushSlot s.latency s.decPipe none)
    | .dec p =>
      t.inputs = { s.inputs with rst := false, encInValid := false, decInValid := true, decPix := p } ∧
        (s.latency = 0 → t.encPix = s.encPix) ∧ (0 < s.latency →
          t.decPipe = pushSlot s.latency s.decPipe (some p) ∧ t.encPipe = pushSlot s.latency s.encPipe none)

/-- When the driver's next stimulus is a request word that decodes to an operation, the step is that operation's meaning
on the state without that stimulus. -/
def Obligations.StepRunsDecodedInstruction : Prop :=
  ∀ (s : State) (w : RequestWord) (rest : List Stimulus) (i : Instr),
    s.driver = .request w :: rest → decode w = .ok i → step s = exec i { s with driver := rest }

/-- `withFetchWord` makes the next step run the word it is given, and nothing but the driver's list changes (log 3; the
container's padding is log 13). -/
def Obligations.FetchWordRunsNext : Prop :=
  ∀ (s : State) (nbits w : Nat) (i : Instr), decodeTableWord nbits w = some i →
    step (s.withFetchWord nbits w) = exec i s

/-- At an edge the driver may present a request to each unit at once, and each is accepted (R15, R73, R76). -/
def Obligations.BothUnitsAcceptAtOneEdge : Prop :=
  ∀ (s : State) (x : Inputs) (rest : List Stimulus), s.driver = .ports x :: rest → 0 < s.latency → x.rst = false →
    x.encInValid = true → x.decInValid = true →
    ∃ t, step s = .next t ∧ t.encPipe = pushSlot s.latency s.encPipe (some (encOperand x)) ∧
      t.decPipe = pushSlot s.latency s.decPipe (some x.decPix) ∧ t.inputs = x ∧ t.driver = rest ∧
      t.refusalMark = s.refusalMark

/-- Every step keeps each queue at exactly LATENCY slots, so it never holds more than LATENCY requests (R73), and never
changes LATENCY. -/
def Obligations.StepKeepsQueuesFull : Prop :=
  ∀ s t : State, s.queuesFull → step s = .next t →
    t.queuesFull ∧ t.latency = s.latency ∧
      (t.encPipe.filter Option.isSome).length ≤ s.latency ∧ (t.decPipe.filter Option.isSome).length ≤ s.latency

/-- The state after reset has full queues, at every LATENCY (R72; the LATENCY of `State.reset` is log 1). That the
power-up state has them too is the model's choice (log 8): R72 calls the queue at power-up unspecified. -/
def Obligations.ResetQueuesFull : Prop :=
  (∀ n : Nat, (State.resetWith n).queuesFull) ∧ (∀ n : Nat, (State.powerUp n).queuesFull) ∧ State.reset.queuesFull

/-- What a reset edge does (R71), as far as R75 lets. With LATENCY 0 the block has no reset and each output is the function
of the present inputs in every state. With LATENCY above 0, an edge with `rst = 1` empties the queues and accepts nothing,
in every state. The strobes are 0 from just after it wherever no power-up draw is left then, and are draws where one is;
and once as many stimuli as draws were left have passed, a strobe is 0 until LATENCY edges from its unit's first accepted
request have passed. That the draws of R75 take precedence over R71's 0, and what the first reset is, is log 7; the field
that counts them is log 8, how one is made is log 6; a refused word among the stimuli counts as an edge by log 5.
That a request word stands alone at its edge, with `rst` and the other unit's strobe at 0, is log 19. -/
def Obligations.ResetEmptiesQueues : Prop :=
  (∀ s : State, s.latency = 0 →
    s.encPix = encodePixel (encOperand s.inputs) ∧ s.decOut = decodePixel s.inputs.decPix ∧
      ∀ (x : Inputs) (rest : List Stimulus), s.driver = .ports x :: rest →
        ∃ t, step s = .next t ∧ t.encPix = encodePixel (encOperand x) ∧ t.decOut = decodePixel x.decPix) ∧
  ∀ (s : State) (x : Inputs) (ys zs rest : List Stimulus), 0 < s.latency → x.rst = true →
    s.driver = .ports x :: (ys ++ zs ++ rest) →
    ∃ t left, step s = .next t ∧ t.encPipe = List.replicate s.latency none ∧
      t.decPipe = List.replicate s.latency none ∧ t.boot = .wasReset left ∧
      (s.boot = .neverReset → left = s.latency) ∧ (∀ n, s.boot = .wasReset n → left = n - 1) ∧
      (left = 0 → t.encOutValid = some false ∧ t.decOutValid = some false) ∧
      (0 < left → t.encOutValid = some (Config.drawEncOutValid t.draws) ∧
        t.decOutValid = some (Config.drawDecOutValid t.draws)) ∧
      (zs.length < s.latency → left ≤ (ys ++ zs).length →
        ∃ u, Sys2Proof.core.run (ys ++ zs).length t = .next u ∧
          ((∀ y ∈ ys, y.encSlot = none) → u.encOutValid = some false) ∧
          ((∀ y ∈ ys, y.decSlot = none) → u.decOutValid = some false))

/-- What reset leaves (R72), and which outputs are unspecified: those of a unit whose strobe is 0, and at power-up the
strobes too. How a draw is made is the model's choice (log 6); this holds wherever it is made. -/
def Obligations.ResetValuesAndDraws : Prop :=
  (∀ n : Nat, (∀ slot ∈ (State.resetWith n).encPipe, slot = none) ∧ (∀ slot ∈ (State.resetWith n).decPipe, slot = none) ∧
    (0 < n → (State.resetWith n).encOutValid = some false ∧ (State.resetWith n).decOutValid = some false)) ∧
  (∀ s : State, s.encOutValid = some false → s.encPix = Config.drawEncPix s.draws) ∧
  (∀ s : State, s.decOutValid = some false → s.decOut = drawnDecOut s.draws) ∧
  ∀ n : Nat, 0 < n → ∀ k : Nat,
    ({ State.powerUp n with draws := k } : State).encOutValid = some (Config.drawEncOutValid k) ∧
      ({ State.powerUp n with draws := k } : State).decOutValid = some (Config.drawDecOutValid k)

/-- Until the power-up draws are over, the outputs and strobes of a pipelined implementation are draws, whatever is
presented to it; only an edge with `rst = 1` begins the count of LATENCY edges to their end, and every later edge counts
it down by one (R72, R75). The field that counts, and how a draw is made, are the model's own (log 8, log 6); that the
count begins at the first edge of a longer reset is its reading (log 7); that a refused word is an edge too, which advances
the draw counter and the countdown, is log 5.
That a request word stands alone at its edge, with `rst` and the other unit's strobe at 0, is log 19. -/
def Obligations.OnlyResetEdgeEndsPowerUp : Prop :=
  ∀ s : State, 0 < s.latency → s.settled = false →
    s.encPix = Config.drawEncPix s.draws ∧ s.decOut = drawnDecOut s.draws ∧
    s.encOutValid = some (Config.drawEncOutValid s.draws) ∧ s.decOutValid = some (Config.drawDecOutValid s.draws) ∧
    ∃ t, step s = .next t ∧ t.draws = s.draws + 1 ∧
      (s.boot = .neverReset → t.boot = if (nextStimulus s).noReset = true then .neverReset else .wasReset s.latency) ∧
      ∀ n, s.boot = .wasReset n → t.boot = .wasReset (n - 1)

/-- R75 for LATENCY above 0: from power-up, over any run without a reset and then from the first reset edge until
LATENCY edges after it, strobes and outputs are draws; from the LATENCY-th edge after it on they no longer are. How a
draw is made is the model's choice (log 6), and that R75 is followed here where R71 would have the strobes 0 is its
reading (log 7). Refused words may stand among the stimuli, each an edge (log 5).
That a request word stands alone at its edge, with `rst` and the other unit's strobe at 0, is log 19. -/
def Obligations.PowerUpDrawsLastLatencyEdges : Prop :=
  (∀ (s : State) (xs rest : List Stimulus), 0 < s.latency → s.boot = .neverReset → s.driver = xs ++ rest →
    (∀ x ∈ xs, x.noReset = true) →
    ∃ u, Sys2Proof.core.run xs.length s = .next u ∧ u.boot = .neverReset ∧ u.encPix = Config.drawEncPix u.draws ∧
      u.decOut = drawnDecOut u.draws ∧ u.encOutValid = some (Config.drawEncOutValid u.draws) ∧
      u.decOutValid = some (Config.drawDecOutValid u.draws)) ∧
  ∀ (s : State) (x : Inputs) (ys rest : List Stimulus), 0 < s.latency → s.boot = .neverReset → x.rst = true →
    s.driver = .ports x :: (ys ++ rest) →
    ∃ u, Sys2Proof.core.run (ys.length + 1) s = .next u ∧
      (ys.length < s.latency → u.encPix = Config.drawEncPix u.draws ∧ u.decOut = drawnDecOut u.draws ∧
        u.encOutValid = some (Config.drawEncOutValid u.draws) ∧
        u.decOutValid = some (Config.drawDecOutValid u.draws)) ∧
      (s.latency ≤ ys.length → u.settled = true ∧ u.encOutValid = some (shownSlot u.encPipe).isSome ∧
        u.decOutValid = some (shownSlot u.decPipe).isSome)

/-- Every step keeps the power-up draws within LATENCY edges, and none takes a block back to before its first reset; the
states after reset and at power-up keep the bound (R75; the field is the model's own, log 8). -/
def Obligations.StepKeepsBootBounded : Prop :=
  (∀ s t : State, s.bootBounded = true → step s = .next t →
    t.bootBounded = true ∧ (s.beenReset = true → t.beenReset = true)) ∧
  ∀ n : Nat, (State.resetWith n).bootBounded = true ∧ (State.resetWith n).settled = true ∧
    (State.powerUp n).bootBounded = true

/-- Over any run without a reset, each queue is the list of the last LATENCY slots, in the order the requests went in:
nothing stalls, and nothing is dropped or reordered (R22, R73, R76). A refused word may stand in the run; that it counts
as an edge with an empty slot for each unit is the model's reading (log 5).
That a request word stands alone at its edge, with `rst` and the other unit's strobe at 0, is log 19. -/
def Obligations.QueuesKeepRequestOrder : Prop :=
  ∀ (s : State) (xs rest : List Stimulus), s.queuesFull → s.driver = xs ++ rest →
    (∀ x ∈ xs, x.noReset = true) →
    ∃ u, Sys2Proof.core.run xs.length s = .next u ∧ u.driver = rest ∧ u.beenReset = s.beenReset ∧
      u.encPipe = (s.encPipe ++ xs.map Stimulus.encSlot).drop xs.length ∧
      u.decPipe = (s.decPipe ++ xs.map Stimulus.decSlot).drop xs.length

/-- A request accepted at an edge has its result on its unit's outputs, strobe at 1, LATENCY - 1 edges later, with requests
to both units following back to back; an edge that accepted nothing gives strobe 0 in the interval the same formula
assigns to it; the queue then holds the last LATENCY slots, no more, in order. A unit accepts exactly where its strobe is
1 and `rst` is 0, and samples its operand there (R73). This holds from the first reset edge on, when the draws of R75 end
in time for the first request after it; a never-reset block shows draws (log 7, on the field of log 8). A refused word may
stand among the stimuli; that it counts as an edge that accepted nothing is the model's reading (log 5).
That a request word stands alone at its edge, with `rst` and the other unit's strobe at 0, is log 19. -/
def Obligations.ResultAppearsAfterLatencyEdges : Prop :=
  (∀ (s : State) (x : Stimulus) (xs rest : List Stimulus), s.queuesFull → s.beenReset = true → s.bootBounded = true →
    s.latency = xs.length + 1 → s.driver = x :: (xs ++ rest) → x.noReset = true → (∀ y ∈ xs, y.noReset = true) →
    ∃ u, Sys2Proof.core.run (xs.length + 1) s = .next u ∧
      u.encOutValid = some x.encSlot.isSome ∧ u.decOutValid = some x.decSlot.isSome ∧
      (∀ e, x.encSlot = some e → u.encPix = encodePixel e) ∧
      (∀ p, x.decSlot = some p → u.decOut = decodePixel p) ∧
      u.encPipe = (x :: xs).map Stimulus.encSlot ∧ u.decPipe = (x :: xs).map Stimulus.decSlot) ∧
  (∀ x : Inputs, (Stimulus.ports x).encSlot = (if x.encInValid = true then some (encOperand x) else none) ∧
    (Stimulus.ports x).decSlot = (if x.decInValid = true then some x.decPix else none)) ∧
  ∀ (s : State) (x : Inputs) (rest : List Stimulus), 0 < s.latency → s.driver = .ports x :: rest → x.rst = true →
    ∃ t, step s = .next t ∧ (∀ slot ∈ t.encPipe, slot = none) ∧ ∀ slot ∈ t.decPipe, slot = none

/-- The result of a request does not depend on LATENCY, on the state it meets, on what was requested before or is
requested after it: once due, the unit's outputs show the result word of the operation alone (R7, R74, R78). A
combinational block needs no reset for it; a pipelined one that was never reset is left out, since it shows draws (R75, as
log 7 reads it on the field of log 8). A refused word may stand among the later stimuli; that it counts as an edge is the
model's reading (log 5).
That a request word stands alone at its edge, with `rst` and the other unit's strobe at 0, is log 19. -/
def Obligations.ResultIndependentOfTimeAndHistory : Prop :=
  ∀ (s : State) (i : Instr) (w : RequestWord) (xs rest : List Stimulus), s.queuesFull →
    (s.latency = 0 ∨ (s.beenReset = true ∧ s.bootBounded = true)) → decode w = .ok i → s.driver = .request w :: (xs ++ rest) → xs.length + 1 = max 1 s.latency →
    (∀ y ∈ xs, y.noReset = true) →
    ∃ u, Sys2Proof.core.run (xs.length + 1) s = .next u ∧ u.shownWord i = resultWord i ∧
      u.shownValid i = (if s.latency = 0 then none else some true)

/-- The encoder and the decoder share nothing but `rst` (R2, R7): what a step makes of one unit depends on that unit's
queue and on what it is asked, whatever the other unit holds and is asked. Two pipelined blocks that agree there agree on
the unit's queue and strobe and on every result it shows; two combinational blocks that are asked the same of a unit show
the same result. No draw counter and no unnamed port enters. Where one of two pipelined blocks meets a refused word, the
agreement with a block that is asked nothing of the unit rests on a refused word being an edge (log 5); what the power-up
draws are is log 8.
That a request word stands alone at its edge, with `rst` and the other unit's strobe at 0, is log 19. -/
def Obligations.UnitsShareNothing : Prop :=
  (∀ s s' t t' : State, s.latency = s'.latency → s.boot = s'.boot → 0 < s.latency →
    (nextStimulus s).noReset = (nextStimulus s').noReset → step s = .next t → step s' = .next t' →
    (s.encPipe = s'.encPipe → (nextStimulus s).encSlot = (nextStimulus s').encSlot →
      t.encPipe = t'.encPipe ∧ (t.settled = true → t.encOutValid = t'.encOutValid) ∧
        (t.encResultReady → t'.encResultReady ∧ t.encPix = t'.encPix)) ∧
    (s.decPipe = s'.decPipe → (nextStimulus s).decSlot = (nextStimulus s').decSlot →
      t.decPipe = t'.decPipe ∧ (t.settled = true → t.decOutValid = t'.decOutValid) ∧
        (t.decResultReady → t'.decResultReady ∧ t.decOut = t'.decOut))) ∧
  ∀ s s' t t' : State, s.latency = 0 → s'.latency = 0 → step s = .next t → step s' = .next t' →
    (∀ e, (nextStimulus s).encSlot = some e → (nextStimulus s').encSlot = some e →
      t.encPix = encodePixel e ∧ t'.encPix = encodePixel e) ∧
    ∀ p, (nextStimulus s).decSlot = some p → (nextStimulus s').decSlot = some p →
      t.decOut = decodePixel p ∧ t'.decOut = decodePixel p

/-- THE MODEL'S CHOICE, no rule of the spec: where two pipelined blocks agree on a unit and their draw counters agree too,
they agree on that unit's outputs and strobe even where these are draws (log 6). A refused word counts as an edge on which
the unit is asked nothing (log 5).
That a request word stands alone at its edge, with `rst` and the other unit's strobe at 0, is log 19. -/
def Obligations.EqualCountersDrawAlike : Prop :=
  ∀ s s' t t' : State, s.latency = s'.latency → s.boot = s'.boot → s.draws = s'.draws → 0 < s.latency →
    (nextStimulus s).noReset = (nextStimulus s').noReset → step s = .next t → step s' = .next t' →
    (s.encPipe = s'.encPipe → (nextStimulus s).encSlot = (nextStimulus s').encSlot →
      t.encPix = t'.encPix ∧ t.encOutValid = t'.encOutValid) ∧
    (s.decPipe = s'.decPipe → (nextStimulus s).decSlot = (nextStimulus s').decSlot →
      t.decOut = t'.decOut ∧ t.decOutValid = t'.decOutValid)

/-- THE MODEL'S CHOICE, no rule of the spec: in a combinational block an operation of one unit leaves the other unit's
outputs as they were, because unnamed ports keep their values; and no request leaves both (log 2). -/
def Obligations.OtherUnitsOutputsStay : Prop :=
  ∀ s : State, s.latency = 0 →
    (∀ p : Pixel, ∃ t, exec (.dec p) s = .next t ∧ t.encPix = s.encPix) ∧
    (∀ p : Pixel, ∃ t, exec (.encRaw p) s = .next t ∧ t.decOut = s.decOut) ∧
    (∀ r g b a : Byte, ∃ t, exec (.enc r g b a) s = .next t ∧ t.decOut = s.decOut) ∧
    (nextStimulus s = .idle → ∃ t, step s = .next t ∧ t.encPix = s.encPix ∧ t.decOut = s.decOut)

/-- A result is delivered whole: all four decoder channels, and all of `enc_pix`, belong to one request (R20). -/
def Obligations.ResultsAreDeliveredWhole : Prop :=
  ∀ s : State,
    (s.decResultReady → ∃ p, s.decOut = decodePixel p ∧ (s.latency = 0 → p = s.inputs.decPix) ∧
      (0 < s.latency → s.decPipe.head? = some (some p) ∧ s.decOutValid = some true)) ∧
    (s.encResultReady → ∃ e, s.encPix = encodePixel e ∧ (s.latency = 0 → e = encOperand s.inputs) ∧
      (0 < s.latency → s.encPipe.head? = some (some e) ∧ s.encOutValid = some true))

/-- Instances share nothing: each one's step is its own, whatever the others do, and the order in which two of them step
does not matter (R69). That an instance which meets a refused word goes on in a next state is log 5, and that the
instances are a list is log 9. -/
def Obligations.InstancesAreIndependent : Prop :=
  (∀ (xs : Instances) (k : Nat), (stepAll xs)[k]? = xs[k]?.map step) ∧
  ∀ (xs : Instances) (j k : Nat), j ≠ k →
    ∃ ys zs us : Instances, stepAt j xs = .next ys ∧ stepAt k ys = .next us ∧ stepAt k xs = .next zs ∧
      stepAt j zs = .next us ∧ us.length = xs.length ∧
      (∀ m, m ≠ j → ys[m]? = xs[m]?) ∧
      (∀ s t, xs[j]? = some s → step s = .next t → us[j]? = some t) ∧
      (∀ s t, xs[k]? = some s → step s = .next t → us[k]? = some t)

/-! ### The stored pixel (spec/20_memory.md) -/

/-- R17: a pixel is stored little-endian, loaded back as it was stored, and every other byte of the buffer stays. A load
puts the byte at the next offset high. -/
def Obligations.StoredPixelIsLittleEndian : Prop :=
  (∀ (buf : Buffer) (off : Nat) (p : Pixel), off + 1 < buf.length →
    ∃ b, storePixel buf off p = some b ∧ b.length = buf.length ∧ memRead b off = some (p.extractLsb' 0 8) ∧
      memRead b (off + 1) = some (p.extractLsb' 8 8) ∧ loadPixel b off = some p ∧
      ∀ k, k ≠ off → k ≠ off + 1 → memRead b k = memRead buf k) ∧
  (∀ (buf : Buffer) (off : Nat) (lo hi : Byte), memRead buf off = some lo → memRead buf (off + 1) = some hi →
    loadPixel buf off = some (hi ++ lo)) ∧
  storePixel [0, 0] 0 0x5EDF#16 = some [0xDF, 0x5E]
end

