-- ==== Sys2Proof/Laws/Codec.lean ====
section
/-! SUPPORT. The shift-and-OR definitions of the codec as concatenations of bit fields (R26, R36, R46). -/

namespace Sys2Proof.Machine

theorem packFields_eq_append (r5 : BitVec 5) (g6 : BitVec 6) (b5 : BitVec 5) :
    packFields r5 g6 b5 = r5 ++ g6 ++ b5 := by
  apply BitVec.eq_of_getLsbD_eq
  intro i hi
  simp only [packFields, BitVec.getLsbD_or, BitVec.getLsbD_shiftLeft, BitVec.getLsbD_setWidth, BitVec.getLsbD_append]
  interval_cases i <;> simp

theorem scale16_eq_append (x : Byte) : scale16 x = x ++ x := by
  apply BitVec.eq_of_getLsbD_eq
  intro i hi
  simp only [scale16, BitVec.getLsbD_or, BitVec.getLsbD_shiftLeft, BitVec.getLsbD_setWidth, BitVec.getLsbD_append]
  interval_cases i <;> simp

theorem top5_eq_extract (c : Byte) : top5 c = c.extractLsb' 3 5 := by
  apply BitVec.eq_of_getLsbD_eq
  intro i hi
  simp [top5]

theorem top6_eq_extract (c : Byte) : top6 c = c.extractLsb' 2 6 := by
  apply BitVec.eq_of_getLsbD_eq
  intro i hi
  simp [top6]

end Sys2Proof.Machine
end

