-- ==== Sys2Proof/Laws/State.lean ====
section
/-! SUPPORT. What each update of the state writes, one lemma a field, so that no proof unfolds a record update. -/

namespace Sys2Proof.Machine

section

variable (s : State)

@[simp] theorem State.driveEnc_latency (r g b a : Byte) : (s.driveEnc r g b a).latency = s.latency := rfl
@[simp] theorem State.driveEnc_inputs (r g b a : Byte) :
    (s.driveEnc r g b a).inputs =
      { s.inputs with rst := false, encInValid := true, decInValid := false, encRawSel := false, encR := r,
                      encG := g, encB := b, encA := a } := rfl
@[simp] theorem State.driveEnc_encPipe (r g b a : Byte) : (s.driveEnc r g b a).encPipe = s.encPipe := rfl
@[simp] theorem State.driveEnc_decPipe (r g b a : Byte) : (s.driveEnc r g b a).decPipe = s.decPipe := rfl
@[simp] theorem State.driveEnc_refusalMark (r g b a : Byte) : (s.driveEnc r g b a).refusalMark = s.refusalMark := rfl
@[simp] theorem State.driveEnc_boot (r g b a : Byte) : (s.driveEnc r g b a).boot = s.boot := rfl
@[simp] theorem State.driveEnc_draws (r g b a : Byte) : (s.driveEnc r g b a).draws = s.draws := rfl
@[simp] theorem State.driveEnc_driver (r g b a : Byte) : (s.driveEnc r g b a).driver = s.driver := rfl

@[simp] theorem State.driveEncRaw_latency (p : Pixel) : (s.driveEncRaw p).latency = s.latency := rfl
@[simp] theorem State.driveEncRaw_inputs (p : Pixel) :
    (s.driveEncRaw p).inputs =
      { s.inputs with rst := false, encInValid := true, decInValid := false, encRawSel := true, encRaw := p } := rfl
@[simp] theorem State.driveEncRaw_encPipe (p : Pixel) : (s.driveEncRaw p).encPipe = s.encPipe := rfl
@[simp] theorem State.driveEncRaw_decPipe (p : Pixel) : (s.driveEncRaw p).decPipe = s.decPipe := rfl
@[simp] theorem State.driveEncRaw_refusalMark (p : Pixel) : (s.driveEncRaw p).refusalMark = s.refusalMark := rfl
@[simp] theorem State.driveEncRaw_boot (p : Pixel) : (s.driveEncRaw p).boot = s.boot := rfl
@[simp] theorem State.driveEncRaw_draws (p : Pixel) : (s.driveEncRaw p).draws = s.draws := rfl
@[simp] theorem State.driveEncRaw_driver (p : Pixel) : (s.driveEncRaw p).driver = s.driver := rfl

@[simp] theorem State.driveDec_latency (p : Pixel) : (s.driveDec p).latency = s.latency := rfl
@[simp] theorem State.driveDec_inputs (p : Pixel) :
    (s.driveDec p).inputs =
      { s.inputs with rst := false, encInValid := false, decInValid := true, decPix := p } := rfl
@[simp] theorem State.driveDec_encPipe (p : Pixel) : (s.driveDec p).encPipe = s.encPipe := rfl
@[simp] theorem State.driveDec_decPipe (p : Pixel) : (s.driveDec p).decPipe = s.decPipe := rfl
@[simp] theorem State.driveDec_refusalMark (p : Pixel) : (s.driveDec p).refusalMark = s.refusalMark := rfl
@[simp] theorem State.driveDec_boot (p : Pixel) : (s.driveDec p).boot = s.boot := rfl
@[simp] theorem State.driveDec_draws (p : Pixel) : (s.driveDec p).draws = s.draws := rfl
@[simp] theorem State.driveDec_driver (p : Pixel) : (s.driveDec p).driver = s.driver := rfl

@[simp] theorem State.driveIdle_latency : s.driveIdle.latency = s.latency := rfl
@[simp] theorem State.driveIdle_inputs :
    s.driveIdle.inputs =
      { s.inputs with rst := false, encInValid := false, decInValid := false } := rfl
@[simp] theorem State.driveIdle_encPipe : s.driveIdle.encPipe = s.encPipe := rfl
@[simp] theorem State.driveIdle_decPipe : s.driveIdle.decPipe = s.decPipe := rfl
@[simp] theorem State.driveIdle_refusalMark : s.driveIdle.refusalMark = s.refusalMark := rfl
@[simp] theorem State.driveIdle_boot : s.driveIdle.boot = s.boot := rfl
@[simp] theorem State.driveIdle_draws : s.driveIdle.draws = s.draws := rfl
@[simp] theorem State.driveIdle_driver : s.driveIdle.driver = s.driver := rfl

@[simp] theorem State.drivePorts_latency (x : Inputs) : (s.drivePorts x).latency = s.latency := rfl
@[simp] theorem State.drivePorts_inputs (x : Inputs) : (s.drivePorts x).inputs = x := rfl
@[simp] theorem State.drivePorts_encPipe (x : Inputs) : (s.drivePorts x).encPipe = s.encPipe := rfl
@[simp] theorem State.drivePorts_decPipe (x : Inputs) : (s.drivePorts x).decPipe = s.decPipe := rfl
@[simp] theorem State.drivePorts_refusalMark (x : Inputs) : (s.drivePorts x).refusalMark = s.refusalMark := rfl
@[simp] theorem State.drivePorts_boot (x : Inputs) : (s.drivePorts x).boot = s.boot := rfl
@[simp] theorem State.drivePorts_draws (x : Inputs) : (s.drivePorts x).draws = s.draws := rfl
@[simp] theorem State.drivePorts_driver (x : Inputs) : (s.drivePorts x).driver = s.driver := rfl

@[simp] theorem State.resetEdge_latency : s.resetEdge.latency = s.latency := rfl
@[simp] theorem State.resetEdge_inputs : s.resetEdge.inputs = s.inputs := rfl
@[simp] theorem State.resetEdge_encPipe : s.resetEdge.encPipe = List.replicate s.latency none := rfl
@[simp] theorem State.resetEdge_decPipe : s.resetEdge.decPipe = List.replicate s.latency none := rfl
@[simp] theorem State.resetEdge_refusalMark : s.resetEdge.refusalMark = s.refusalMark := rfl
@[simp] theorem State.resetEdge_boot : s.resetEdge.boot = bootAtReset s.latency s.boot := rfl
@[simp] theorem State.resetEdge_draws : s.resetEdge.draws = s.draws + 1 := rfl
@[simp] theorem State.resetEdge_driver : s.resetEdge.driver = s.driver := rfl

@[simp] theorem State.acceptEdge_latency : s.acceptEdge.latency = s.latency := rfl
@[simp] theorem State.acceptEdge_inputs : s.acceptEdge.inputs = s.inputs := rfl
@[simp] theorem State.acceptEdge_encPipe :
    s.acceptEdge.encPipe =
      pushSlot s.latency s.encPipe (sampledEnc s.inputs) := rfl
@[simp] theorem State.acceptEdge_decPipe :
    s.acceptEdge.decPipe =
      pushSlot s.latency s.decPipe (sampledDec s.inputs) := rfl
@[simp] theorem State.acceptEdge_refusalMark : s.acceptEdge.refusalMark = s.refusalMark := rfl
@[simp] theorem State.acceptEdge_boot : s.acceptEdge.boot = bootAtEdge s.boot := rfl
@[simp] theorem State.acceptEdge_draws : s.acceptEdge.draws = s.draws + 1 := rfl
@[simp] theorem State.acceptEdge_driver : s.acceptEdge.driver = s.driver := rfl

@[simp] theorem State.markRefusal_latency : s.markRefusal.latency = s.latency := rfl
@[simp] theorem State.markRefusal_inputs : s.markRefusal.inputs = s.inputs := rfl
@[simp] theorem State.markRefusal_encPipe : s.markRefusal.encPipe = s.encPipe := rfl
@[simp] theorem State.markRefusal_decPipe : s.markRefusal.decPipe = s.decPipe := rfl
@[simp] theorem State.markRefusal_refusalMark : s.markRefusal.refusalMark = true := rfl
@[simp] theorem State.markRefusal_boot : s.markRefusal.boot = s.boot := rfl
@[simp] theorem State.markRefusal_draws : s.markRefusal.draws = s.draws := rfl
@[simp] theorem State.markRefusal_driver : s.markRefusal.driver = s.driver := rfl

@[simp] theorem State.dropStimulus_latency : s.dropStimulus.latency = s.latency := rfl
@[simp] theorem State.dropStimulus_inputs : s.dropStimulus.inputs = s.inputs := rfl
@[simp] theorem State.dropStimulus_encPipe : s.dropStimulus.encPipe = s.encPipe := rfl
@[simp] theorem State.dropStimulus_decPipe : s.dropStimulus.decPipe = s.decPipe := rfl
@[simp] theorem State.dropStimulus_refusalMark : s.dropStimulus.refusalMark = s.refusalMark := rfl
@[simp] theorem State.dropStimulus_boot : s.dropStimulus.boot = s.boot := rfl
@[simp] theorem State.dropStimulus_draws : s.dropStimulus.draws = s.draws := rfl
@[simp] theorem State.dropStimulus_driver : s.dropStimulus.driver = s.driver.tail := rfl

@[simp] theorem State.withFetchWord_latency (nbits w : Nat) : (s.withFetchWord nbits w).latency = s.latency := rfl
@[simp] theorem State.withFetchWord_inputs (nbits w : Nat) : (s.withFetchWord nbits w).inputs = s.inputs := rfl
@[simp] theorem State.withFetchWord_encPipe (nbits w : Nat) : (s.withFetchWord nbits w).encPipe = s.encPipe := rfl
@[simp] theorem State.withFetchWord_decPipe (nbits w : Nat) : (s.withFetchWord nbits w).decPipe = s.decPipe := rfl
@[simp] theorem State.withFetchWord_refusalMark (nbits w : Nat) :
    (s.withFetchWord nbits w).refusalMark =
      s.refusalMark := rfl
@[simp] theorem State.withFetchWord_boot (nbits w : Nat) : (s.withFetchWord nbits w).boot = s.boot := rfl
@[simp] theorem State.withFetchWord_draws (nbits w : Nat) : (s.withFetchWord nbits w).draws = s.draws := rfl
@[simp] theorem State.withFetchWord_driver (nbits w : Nat) :
    (s.withFetchWord nbits w).driver =
      .request (tableWord nbits w) :: s.driver := rfl

end

end Sys2Proof.Machine
end

