-- ==== Sys2Proof/Laws/Ops.lean ====
section
/-! SUPPORT. What the shared operations can do, said once each: a slot entering a queue (R73), one clock edge (R71, R73),
one operation, one stimulus, one step. Later proofs cite these instead of unfolding the operations. -/

namespace Sys2Proof.Machine

/-! ### Queues -/

@[simp] theorem lastSlots_zero {α : Type} (slots : List α) : lastSlots 0 slots = [] := by
  simp [lastSlots]

theorem lastSlots_length {α : Type} (n : Nat) (slots : List α) (h : n ≤ slots.length) :
    (lastSlots n slots).length = n := by
  simp only [lastSlots, List.length_drop]
  omega

/-- A full queue stays full when a slot enters it. -/
theorem pushSlot_length {α : Type} (n : Nat) (pipe : List α) (slot : α) (h : pipe.length = n) :
    (pushSlot n pipe slot).length = n :=
  lastSlots_length n _ (by simp [h])

/-- A full queue loses its oldest slot when one enters it. -/
theorem pushSlot_of_full {α : Type} (n : Nat) (pipe : List α) (slot : α) (h : pipe.length = n) :
    pushSlot n pipe slot = (pipe ++ [slot]).drop 1 := by
  simp [pushSlot, lastSlots, h]

/-- A queue of empty slots stays so when an empty slot enters it. -/
theorem pushSlot_replicate_none {α : Type} (n : Nat) :
    pushSlot n (List.replicate n (none : Option α)) none = List.replicate n none := by
  rw [pushSlot, lastSlots, show [(none : Option α)] = List.replicate 1 none from rfl, List.replicate_append_replicate,
    List.length_replicate, List.drop_replicate]
  congr 1
  omega

@[simp] theorem shownSlot_nil {α : Type} : shownSlot ([] : List (Option α)) = none := rfl

@[simp] theorem shownSlot_cons {α : Type} (slot : Option α) (slots : List (Option α)) :
    shownSlot (slot :: slots) = slot := rfl

@[simp] theorem shownSlot_replicate_none {α : Type} (n : Nat) :
    shownSlot (List.replicate n (none : Option α)) = none := by
  cases n <;> rfl

/-! ### One edge -/

theorem State.clockEdge_of_combinational {s : State} (h : s.latency = 0) : s.clockEdge = s := by
  simp [State.clockEdge, h]

theorem State.clockEdge_of_reset {s : State} (h : 0 < s.latency) (hr : s.inputs.rst = true) :
    s.clockEdge = s.resetEdge := by
  simp [State.clockEdge, hr, Nat.ne_of_gt h]

theorem State.clockEdge_of_accept {s : State} (h : 0 < s.latency) (hr : s.inputs.rst = false) :
    s.clockEdge = s.acceptEdge := by
  simp [State.clockEdge, hr, Nat.ne_of_gt h]

/-- What an edge can do: nothing, a reset, or an acceptance. -/
theorem State.clockEdge_cases (s : State) :
    (s.latency = 0 ∧ s.clockEdge = s) ∨
      (0 < s.latency ∧ s.inputs.rst = true ∧ s.clockEdge = s.resetEdge) ∨
        (0 < s.latency ∧ s.inputs.rst = false ∧ s.clockEdge = s.acceptEdge) := by
  rcases Nat.eq_zero_or_pos s.latency with h | h
  · exact .inl ⟨h, State.clockEdge_of_combinational h⟩
  · cases hr : s.inputs.rst
    · exact .inr (.inr ⟨h, rfl, State.clockEdge_of_accept h hr⟩)
    · exact .inr (.inl ⟨h, rfl, State.clockEdge_of_reset h hr⟩)

@[simp] theorem State.clockEdge_latency (s : State) : s.clockEdge.latency = s.latency := by
  rcases s.clockEdge_cases with ⟨-, h⟩ | ⟨-, -, h⟩ | ⟨-, -, h⟩ <;> simp [h]

@[simp] theorem State.clockEdge_inputs (s : State) : s.clockEdge.inputs = s.inputs := by
  rcases s.clockEdge_cases with ⟨-, h⟩ | ⟨-, -, h⟩ | ⟨-, -, h⟩ <;> simp [h]

@[simp] theorem State.clockEdge_refusalMark (s : State) : s.clockEdge.refusalMark = s.refusalMark := by
  rcases s.clockEdge_cases with ⟨-, h⟩ | ⟨-, -, h⟩ | ⟨-, -, h⟩ <;> simp [h]

@[simp] theorem State.clockEdge_driver (s : State) : s.clockEdge.driver = s.driver := by
  rcases s.clockEdge_cases with ⟨-, h⟩ | ⟨-, -, h⟩ | ⟨-, -, h⟩ <;> simp [h]

/-- What an edge does to the power-up draws: nothing without a clock, else what the value of `rst` says (R75). -/
theorem State.clockEdge_boot (s : State) :
    s.clockEdge.boot =
      if s.latency = 0 then s.boot else if s.inputs.rst = true then bootAtReset s.latency s.boot else bootAtEdge s.boot := by
  rcases s.clockEdge_cases with ⟨h, e⟩ | ⟨h, hr, e⟩ | ⟨h, hr, e⟩
  · simp [e, h]
  · simp [e, hr, Nat.ne_of_gt h]
  · simp [e, hr, Nat.ne_of_gt h]

@[simp] theorem State.settled_of_wasReset_zero {s : State} (h : s.boot = .wasReset 0) : s.settled = true := by
  simp [State.settled, h]

/-- What an edge draws at next: the counter advances wherever there is a clock. -/
theorem State.clockEdge_draws (s : State) :
    s.clockEdge.draws = if s.latency = 0 then s.draws else s.draws + 1 := by
  rcases s.clockEdge_cases with ⟨h, e⟩ | ⟨h, -, e⟩ | ⟨h, -, e⟩
  · simp [e, h]
  · simp [e, Nat.ne_of_gt h]
  · simp [e, Nat.ne_of_gt h]

/-- An edge keeps full queues full (R73). -/
theorem State.clockEdge_queuesFull {s : State} (h : s.queuesFull) : s.clockEdge.queuesFull := by
  rcases s.clockEdge_cases with ⟨-, e⟩ | ⟨-, -, e⟩ | ⟨-, -, e⟩
  · rwa [e]
  · rw [e]; exact ⟨by simp, by simp⟩
  · rw [e]; exact ⟨pushSlot_length _ _ _ h.1, pushSlot_length _ _ _ h.2⟩

/-! ### One operation, one stimulus, one step -/

/-- The ports as an operation's request word drives them (R28). -/
def driven (i : Instr) (s : State) : State :=
  match i with
  | .enc r g b a => s.driveEnc r g b a
  | .encRaw p => s.driveEncRaw p
  | .dec p => s.driveDec p

/-- Every operation drives its ports and lets one edge pass. -/
theorem exec_eq_driven (i : Instr) (s : State) : exec i s = .next (driven i s).clockEdge := by
  cases i <;> rfl

/-- The state a stimulus gives the block before the edge: the ports driven, a refusal marked. -/
def presented (x : Stimulus) (s : State) : State :=
  match x with
  | .idle => s.driveIdle
  | .request w =>
    match decode w with
    | .ok i => driven i s
    | .error _ => s.markRefusal.driveIdle
  | .ports v => s.drivePorts v

/-- Every stimulus drives the ports and lets one edge pass: no step stops. -/
theorem present_eq_presented (x : Stimulus) (s : State) : present x s = .next (presented x s).clockEdge := by
  cases x with
  | idle => rfl
  | ports v => rfl
  | request w =>
    simp only [present, presentRequest, presented]
    cases decode w with
    | ok i => exact exec_eq_driven i s
    | error e => rfl

/-- What one step does. -/
theorem step_eq_presented (s : State) : step s = .next (presented (nextStimulus s) s.dropStimulus).clockEdge :=
  present_eq_presented _ _

@[simp] theorem driven_latency (i : Instr) (s : State) : (driven i s).latency = s.latency := by cases i <;> rfl

@[simp] theorem driven_encPipe (i : Instr) (s : State) : (driven i s).encPipe = s.encPipe := by cases i <;> rfl

@[simp] theorem driven_decPipe (i : Instr) (s : State) : (driven i s).decPipe = s.decPipe := by cases i <;> rfl

@[simp] theorem driven_refusalMark (i : Instr) (s : State) : (driven i s).refusalMark = s.refusalMark := by
  cases i <;> rfl

@[simp] theorem driven_boot (i : Instr) (s : State) : (driven i s).boot = s.boot := by cases i <;> rfl

@[simp] theorem driven_draws (i : Instr) (s : State) : (driven i s).draws = s.draws := by cases i <;> rfl

@[simp] theorem driven_driver (i : Instr) (s : State) : (driven i s).driver = s.driver := by cases i <;> rfl

@[simp] theorem driven_rst (i : Instr) (s : State) : (driven i s).inputs.rst = false := by cases i <;> rfl

section

variable (x : Stimulus) (s : State)

@[simp] theorem presented_latency : (presented x s).latency = s.latency := by
  simp only [presented]; split <;> try rfl
  split <;> simp

@[simp] theorem presented_encPipe : (presented x s).encPipe = s.encPipe := by
  simp only [presented]; split <;> try rfl
  split <;> simp

@[simp] theorem presented_decPipe : (presented x s).decPipe = s.decPipe := by
  simp only [presented]; split <;> try rfl
  split <;> simp

@[simp] theorem presented_boot : (presented x s).boot = s.boot := by
  simp only [presented]; split <;> try rfl
  split <;> simp

@[simp] theorem presented_draws : (presented x s).draws = s.draws := by
  simp only [presented]; split <;> try rfl
  split <;> simp

@[simp] theorem presented_driver : (presented x s).driver = s.driver := by
  simp only [presented]; split <;> try rfl
  split <;> simp

/-- A stimulus raises `rst` exactly where it is one that resets. -/
@[simp] theorem presented_rst : (presented x s).inputs.rst = !x.noReset := by
  simp only [presented, Stimulus.noReset]; split
  · rfl
  · split <;> simp
  · simp

/-- The slot the encoder samples is the slot of the stimulus. -/
@[simp] theorem sampledEnc_presented : sampledEnc (presented x s).inputs = x.encSlot := by
  cases x with
  | idle => rfl
  | ports v => rfl
  | request w =>
    cases h : decode w with
    | error e => simp [presented, Stimulus.encSlot, h, sampledEnc]
    | ok i => cases i <;> simp [presented, Stimulus.encSlot, h, sampledEnc, driven, encOperand]

/-- The slot the decoder samples is the slot of the stimulus. -/
@[simp] theorem sampledDec_presented : sampledDec (presented x s).inputs = x.decSlot := by
  cases x with
  | idle => rfl
  | ports v => rfl
  | request w =>
    cases h : decode w with
    | error e => simp [presented, Stimulus.decSlot, h, sampledDec]
    | ok i => cases i <;> simp [presented, Stimulus.decSlot, h, sampledDec, driven]

end

end Sys2Proof.Machine
end

