-- ==== Sys2Proof/Laws/PerInstr.lean ====
section
/-! SUPPORT. Statements for all operations, one lemma a constructor: the operation code each is encoded with (R30). -/

namespace Sys2Proof.Laws.OpCode

/-- The operation code of the table's row (R30). -/
def code : Instr → BitVec 2
  | .enc _ _ _ _ => 0b00#2
  | .encRaw _ => 0b01#2
  | .dec _ => 0b10#2

/-- The word of the operation carries its operation code. -/
def Statement (i : Instr) : Prop := opOf (Sys2Proof.encode i) = code i

theorem enc (r g b a : Byte) : Statement (.enc r g b a) := by
  show ((0b00#2 ++ a ++ r ++ g ++ b : BitVec 34)).extractLsb' 32 2 = 0b00#2
  apply BitVec.eq_of_getLsbD_eq
  intro i hi
  simp only [BitVec.getLsbD_extractLsb', BitVec.getLsbD_append]
  interval_cases i <;> simp

theorem encRaw (p : Pixel) : Statement (.encRaw p) := by
  show ((0b01#2 ++ 0#16 ++ p : BitVec 34)).extractLsb' 32 2 = 0b01#2
  apply BitVec.eq_of_getLsbD_eq
  intro i hi
  simp only [BitVec.getLsbD_extractLsb', BitVec.getLsbD_append]
  interval_cases i <;> simp

theorem dec (p : Pixel) : Statement (.dec p) := by
  show ((0b10#2 ++ 0#16 ++ p : BitVec 34)).extractLsb' 32 2 = 0b10#2
  apply BitVec.eq_of_getLsbD_eq
  intro i hi
  simp only [BitVec.getLsbD_extractLsb', BitVec.getLsbD_append]
  interval_cases i <;> simp

end Sys2Proof.Laws.OpCode
end

