-- ==== Sys2Proof/Laws/Run.lean ====
section
/-! SUPPORT. Runs of the machine behind the host's interface, one step at a time. -/

namespace Sys2Proof.Machine

theorem core_run_zero (s : State) : Sys2Proof.core.run 0 s = .next s := rfl

/-- A run's first step, which never stops it. -/
theorem core_run_succ (k : Nat) (s : State) :
    Sys2Proof.core.run (k + 1) s =
      Sys2Proof.core.run k (presented (nextStimulus s) s.dropStimulus).clockEdge := by
  have h : Sys2Proof.core.step s = .next (presented (nextStimulus s) s.dropStimulus).clockEdge := step_eq_presented s
  simp [Host.Core.run, h]

end Sys2Proof.Machine
end

