-- ==== Sys2Proof/Tests/Slice0.lean ====
section
/-! SUPPORT. The model's own tests: words and results transcribed from spec/95_test_vectors.md and the worked examples of
the rules, a smoke test of WellFormed, and for every statement with hypotheses a concrete case that meets them. -/

namespace Sys2Proof.Tests

open Sys2Proof Sys2Proof.Machine

/-- A block of the given LATENCY right after reset, with these stimuli to come. -/
def ready (n : Nat) (xs : List Stimulus) : State := { State.resetWith n with driver := xs }

/-- What a step, an operation or a run answers, where it answers a next state. -/
def next? (o : Host.Outcome State Fault Refusal) : Option State :=
  match o with
  | .next t => some t
  | .fault _ => none
  | .refused _ => none

/-- All input ports of the driver, both units being given a request. -/
def bothUnits : Inputs :=
  { Inputs.zero with encInValid := true, decInValid := true, encRawSel := true, encRaw := 0xABCD#16, decPix := 0x5EDF#16 }

/-- The driver resets while it presents requests. -/
def resetting : Inputs := { bothUnits with rst := true }

/-! ### Decoding: words written out from the encoding strings of R28 -/

theorem test_decode_enc :
    decode 0b00_11111111_01011010_11011010_11111111#34 = .ok (.enc 0x5A 0xDA 0xFF 0xFF) := by decide

theorem test_decode_encRaw : decode 0b01_11011110_10101101_00010010_00110100#34 = .ok (.encRaw 0x1234) := by decide

theorem test_decode_dec : decode 0b10_11111111_11111111_01011110_11011111#34 = .ok (.dec 0x5EDF) := by decide

/-- 95_test_vectors.md section 2.5. -/
theorem test_decode_reserved : decode 0x300000000#34 = .error .reservedOp := by decide

/-- The assembler's words of 95_test_vectors.md Program 1. -/
theorem test_encode_words :
    encode (.enc 0x10 0x45 0xA5 0xFF) = 0x0FF1045A5#34 ∧ encode (.encRaw 0x1234) = 0x100001234#34 ∧
      encode (.dec 0x1234) = 0x200001234#34 := by decide

theorem test_table_words :
    decodeTableWord 40 0x078123456 = some (.enc 0x12 0x34 0x56 0x78) ∧
      decodeTableWord 40 0x1DEAD0001 = some (.encRaw 0x0001) ∧ decodeTableWord 40 0x200000821 = some (.dec 0x0821) ∧
      decodeTableWord 40 0x300000000 = none := by decide

/-! ### WellFormed: one ill-formed term for each check (R35) -/

theorem test_refuses_red : AsmLine.wellFormed (.enc (.decimal [2, 5, 6]) (.hex [1]) (.hex [2]) (.hex [3])) = false := by
  decide

theorem test_refuses_green : AsmLine.wellFormed (.enc (.hex [1]) (.hex [1, 0, 0]) (.hex [2]) (.hex [3])) = false := by
  decide

theorem test_refuses_blue : AsmLine.wellFormed (.enc (.hex [1]) (.hex [2]) (.decimal []) (.hex [3])) = false := by decide

theorem test_refuses_alpha : AsmLine.wellFormed (.enc (.hex [1]) (.hex [2]) (.hex [3]) (.hex [1, 0, 0])) = false := by
  decide

theorem test_refuses_short_form :
    AsmLine.wellFormed (.enc3 (.hex [1, 0, 0]) (.hex [2]) (.hex [3])) = false ∧
      AsmLine.wellFormed (.enc3 (.hex [1]) (.hex [1, 0, 0]) (.hex [3])) = false ∧
      AsmLine.wellFormed (.enc3 (.hex [1]) (.hex [2]) (.hex [1, 0, 0])) = false := by decide

theorem test_refuses_raw : AsmLine.wellFormed (.encRaw (.decimal [6, 5, 5, 3, 6])) = false := by decide

theorem test_refuses_dec : AsmLine.wellFormed (.dec (.hex [1, 0, 0, 0, 0])) = false := by decide

theorem test_accepts_bounds :
    AsmLine.wellFormed (.enc (.decimal [2, 5, 5]) (.hex [15, 15]) (.decimal [0]) (.hex [0])) = true ∧
      AsmLine.wellFormed (.dec (.decimal [6, 5, 5, 3, 5])) = true := by decide

/-! ### Assembling text (R35, 95_test_vectors.md Program 2) -/

theorem test_assemble_short_enc :
    assembleText ['E', 'N', 'C', ' ', '0', 'x', '1', '0', ',', ' ', '0', 'x', '3', '4', ',', ' ', '8', '2', ' ', ';', 'E'] =
      .ok 0x0FF103452#34 := by decide

theorem test_assemble_dec :
    assembleText ['D', 'E', 'C', ' ', ' ', '0', 'x', '1', '1', 'A', 'A'] = .ok 0x2000011AA#34 := by decide

theorem test_assemble_refuses :
    assembleText ['E', 'N', 'C', '.', 'R', 'A', 'W', ' ', '6', '5', '5', '3', '6'] = .error .literalOutOfRange ∧
      assembleText ['D', 'E', 'C'] = .error .notALine := by decide

/-! ### One operation, one step -/

/-- 95_test_vectors.md section 2.1: one below full in each channel, truncated and not rounded. -/
theorem test_enc_truncates :
    (next? (exec (.enc 0xF7 0xFB 0xF7 0xFF) (ready 0 []))).map State.encPix = some 0xF7DE#16 := by decide

/-- 95_test_vectors.md section 2.1: mixed channels, so that a swapped pair shows. -/
theorem test_enc_mixed :
    (next? (step ((ready 0 []).withFetchWord 40 0x078123456))).map State.encPix = some 0x11AA#16 := by decide

/-- 95_test_vectors.md section 2.2. -/
theorem test_encRaw_identity :
    (next? (step ((ready 0 []).withFetchWord 40 0x1DEAD0001))).map State.encPix = some 0x0001#16 := by decide

/-- 95_test_vectors.md section 2.3: mixed fields. -/
theorem test_dec_mixed :
    (next? (step ((ready 0 []).withFetchWord 40 0x2FFFF1234))).map State.decOut =
      some { r := 0x1010#16, g := 0x4545#16, b := 0xA5A5#16, a := 0xFFFF#16 } := by decide

/-- 95_test_vectors.md section 2.3: replication of the top bit. -/
theorem test_dec_half :
    (next? (exec (.dec 0x8410) (ready 0 []))).map State.decOut =
      some { r := 0x8484#16, g := 0x8282#16, b := 0x8484#16, a := 0xFFFF#16 } := by decide

/-- 95_test_vectors.md section 2.5 and Program 5: the refusal is marked and the run goes on. -/
theorem test_reserved_is_marked :
    (next? (step (ready 0 [.request 0x300000000#34, .idle]))).map (fun t => (t.refusalMark, t.driver)) =
      some (true, [.idle]) := by decide

/-- 70_reset_and_hazards.md R73: with LATENCY 1 the result shows in the cycle right after the accepting edge. -/
theorem test_latency_one :
    (next? (exec (.enc 0x5A 0xDA 0xFF 0xFF) (ready 1 []))).map (fun t => (t.encOutValid, t.encPix, t.decOutValid)) =
      some (some true, 0x5EDF#16, some false) := by decide

/-- 95_test_vectors.md Program 4, just after edge 1: LATENCY 2, the request of edge 1 not yet shown. -/
theorem test_latency_two_waits :
    (next? (exec (.enc 0x5A 0xDA 0xFF 0xFF) (ready 2 []))).map (fun t => (t.encOutValid, t.encPipe)) =
      some (some false, [none, some (.generic 0x5A 0xDA 0xFF 0xFF)]) := by decide

/-- 95_test_vectors.md Program 4, just after edge 2, two edges after the first reset: the power-up draws are over, the
request of edge 1 shows and that of edge 2 waits. -/
theorem test_latency_two_shows :
    (next? (exec (.encRaw 0xABCD)
      { ready 2 [] with boot := .wasReset 1, encPipe := [none, some (.generic 0x5A 0xDA 0xFF 0xFF)] })).map
      (fun t => (t.encOutValid, t.encPix)) = some (some true, 0x5EDF#16) := by decide

/-- 95_test_vectors.md Program 4, edge 0: from an unknown power-up state, reset wins over the request; the strobes stay
open for LATENCY edges (R75). -/
theorem test_first_reset_wins :
    (next? (step { State.powerUp 2 with driver := [.ports resetting] })).map (fun t => (t.boot, t.encPipe, t.decPipe)) =
      some (.wasReset 2, [none, none], [none, none]) := by decide

/-- R71: a later reset edge clears the strobes at once. -/
theorem test_later_reset_clears :
    (next? (step { ready 1 [.ports resetting] with encPipe := [some (.raw 0xABCD)], decPipe := [some 0x5EDF] })).map
      (fun t => (t.encOutValid, t.decOutValid, t.encPipe)) = some (some false, some false, [none]) := by decide

/-- 20_memory.md R17 and 95_test_vectors.md Program 3. -/
theorem test_store_little_endian :
    storePixel [0, 0, 0, 0, 0, 0, 0, 0] 4 0xCB26#16 = some [0, 0, 0, 0, 0x26, 0xCB, 0, 0] ∧
      loadPixel [0, 0, 0, 0, 0x26, 0xCB, 0, 0] 4 = some 0xCB26#16 ∧ storePixel [0, 0] 1 0xCB26#16 = none := by decide

/-! ### Cases that meet the hypotheses of the statements, each clause at a boundary -/

theorem witness_DecodeEncodeAgree : decode 0x2FFFF5EDF#34 = .ok (.dec 0x5EDF) := by decide

theorem witness_RequestWordDrivesNamedPorts :
    (ready 0 [.request 0x0FF5ADAFF#34]).driver = [.request (0b00#2 ++ 0xFF#8 ++ 0x5A#8 ++ 0xDA#8 ++ 0xFF#8)] ∧
      (ready 1 [.request 0x1DEAD0001#34]).driver = [.request (0b01#2 ++ 0xDEAD#16 ++ 0x0001#16)] ∧
      (ready 2 [.request 0x2FFFF5EDF#34]).driver = [.request (0b10#2 ++ 0xFFFF#16 ++ 0x5EDF#16)] := by decide

theorem witness_IgnoredBitsNeverMatter : ∃ op : BitVec 2, op = 0b01#2 ∨ op = 0b10#2 := ⟨0b01#2, .inl rfl⟩

theorem witness_ReservedOpIsRefused :
    (ready 0 [.request 0x3FF5ADAFF#34]).driver = [.request (0b11#2 ++ 0xFF5ADAFF#32)] ∧
      (ready 1 [.request 0x300000000#34]).driver = [.request (0b11#2 ++ 0#32)] ∧ 0 < (ready 1 []).latency ∧
      (ready 0 [.ports bothUnits]).driver = [.ports bothUnits] := by decide

theorem witness_RequestsHaveResultOrAreRefused :
    opOf 0x2FFFF5EDF#34 ≠ 0b11#2 ∧ (ready 1 [.idle, .request 0x300000000#34]).driver =
      [.idle, .request 0x300000000#34] ++ [] := by decide

theorem witness_ResultWordLayout :
    decode 0x100001234#34 = decode 0x1DEAD1234#34 ∧ (ready 0 []).latency = 0 := by decide

theorem witness_AssemblerWritesRequestWords :
    literalValue (.decimal [2, 5]) = some 25 ∧ literalValue (.hex [15]) = some 15 ∧
      literalValue (.decimal [2, 5, 5]) = some 255 ∧ literalValue (.hex [15, 15]) = some 255 ∧
      literalValue (.decimal [0]) = some 0 ∧ literalValue (.hex [15, 15, 15, 15]) = some 65535 ∧
      assemble (.dec (.decimal [0])) = .ok 0x200000000#34 := by decide

/-- The first literals out of range, 256 and 65536. -/
theorem witness_AssemblerWritesRequestWords_refusal :
    literalValue (.decimal [2, 5, 6]) = some 256 ∧ literalValue (.hex [1, 0, 0]) = some 256 ∧
      literalValue (.decimal [6, 5, 5, 3, 6]) = some 65536 ∧ literalValue (.hex [1, 0, 0, 0, 0]) = some 65536 := by decide

theorem witness_AssemblerAcceptsWellFormedLines :
    AsmLine.wellFormed (.dec (.hex [1, 0, 0, 0, 0])) = false ∧ AsmLine.wellFormed (.dec (.hex [15, 15, 15, 15])) = true ∧
      ∃ l : Literal, l = .decimal [] ∨ l = .hex [] := ⟨by decide, by decide, .hex [], .inr rfl⟩

theorem witness_EncPacksByTruncation :
    (ready 0 []).latency = 0 ∧ 0 < (ready 1 []).latency ∧
      (next? (exec (.enc 0x5A 0xDA 0xFF 0xFF) (ready 1 []))).map (fun t => t.inputs.rst) = some false := by decide

theorem witness_EncRawReturnsItsOperand :
    bothUnits.encRawSel = true ∧ Inputs.zero.encRawSel = false ∧ (ready 0 []).latency = 0 ∧ 0 < (ready 1 []).latency ∧
      (next? (exec (.encRaw 0x1234) (ready 1 []))).map (fun t => t.inputs.rst) = some false := by decide

theorem witness_ShortCircuitAgreesWithGenericPath : (ready 0 []).latency = 0 ∧ (ready 0 [.idle]).latency = 0 := by decide

theorem witness_EncoderLanesAreMonotone : (0x07#8 : Byte) ≤ 0x08#8 ∧ (0x03#8 : Byte) ≤ 0x04#8 := by decide

theorem witness_DecUnpacksByReplication :
    (ready 0 []).latency = 0 ∧ 0 < (ready 1 []).latency ∧
      (next? (exec (.dec 0x1234) (ready 1 []))).map (fun t => t.inputs.rst) = some false := by decide

theorem witness_AlphaIsAlwaysOpaque :
    (ready 0 []).decResultReady ∧ ({ ready 1 [] with decPipe := [some 0x0000#16] } : State).decResultReady := by decide

theorem witness_StepRunsDecodedInstruction :
    (ready 1 [.request 0x200001234#34]).driver = [.request 0x200001234#34] ∧
      decode 0x200001234#34 = .ok (.dec 0x1234) := by decide

theorem witness_FetchWordRunsNext : decodeTableWord 40 0x200001234 = some (.dec 0x1234) := by decide

theorem witness_BothUnitsAcceptAtOneEdge :
    (ready 1 [.ports bothUnits]).driver = [.ports bothUnits] ∧ 0 < (ready 1 []).latency ∧ bothUnits.rst = false ∧
      bothUnits.encInValid = true ∧ bothUnits.decInValid = true := by decide

theorem witness_StepKeepsQueuesFull :
    (ready 2 [.ports bothUnits]).queuesFull ∧
      step (ready 2 [.ports bothUnits]) = .next ((ready 2 []).drivePorts bothUnits).acceptEdge :=
  ⟨by decide, rfl⟩

theorem witness_ResetEmptiesQueues :
    (ready 0 [.ports bothUnits]).latency = 0 ∧ (ready 0 [.ports bothUnits]).driver = [.ports bothUnits] ∧
      0 < (ready 2 []).latency ∧ resetting.rst = true ∧ (ready 2 []).boot = .wasReset 0 ∧ 0 - 1 = 0 ∧
      (ready 2 [.ports resetting, .idle, .request 0x200001234#34]).driver =
        .ports resetting :: ([.idle] ++ [.request 0x200001234#34] ++ []) ∧
      ([.request 0x200001234#34] : List Stimulus).length < (ready 2 []).latency ∧
      (∀ y ∈ ([.idle] : List Stimulus), y.encSlot = none) ∧ (∀ y ∈ ([.idle] : List Stimulus), y.decSlot = none) := by
  decide

/-- The clause about a first reset: as many stimuli after it as LATENCY, the last of them a request not yet due. -/
theorem witness_ResetEmptiesQueues_first :
    (State.powerUp 2).boot = .neverReset ∧ 0 < (State.powerUp 2).latency ∧
      ({ State.powerUp 2 with driver := [.ports resetting, .idle, .request 0x200001234#34] } : State).driver =
        .ports resetting :: ([.idle] ++ [.request 0x200001234#34] ++ []) ∧
      (State.powerUp 2).latency ≤ ([.idle, .request 0x200001234#34] : List Stimulus).length ∧
      ([.request 0x200001234#34] : List Stimulus).length < (State.powerUp 2).latency := by decide

theorem witness_ResetValuesAndDraws :
    (ready 1 []).encOutValid = some false ∧ (ready 1 []).decOutValid = some false ∧ 0 < (State.powerUp 1).latency := by
  decide

/-- The clause about a reset edge while draws are counted down: one edge left ends with it, two leave one. -/
theorem witness_ResetEmptiesQueues_counting :
    ({ State.powerUp 2 with boot := .wasReset 1 } : State).boot = .wasReset 1 ∧ 1 - 1 = 0 ∧
      ({ State.powerUp 2 with boot := .wasReset 2 } : State).boot = .wasReset 2 ∧ 0 < 2 - 1 ∧
      2 - 1 ≤ ([.idle, .request 0x200001234#34] : List Stimulus).length := by decide

theorem witness_OnlyResetEdgeEndsPowerUp :
    0 < (State.powerUp 1).latency ∧ (State.powerUp 1).settled = false ∧ (State.powerUp 1).boot = .neverReset ∧
      ({ ready 1 [] with boot := .wasReset 1 } : State).settled = false := by decide

/-- Both clauses of the second half at LATENCY 1: no edge after the first reset, and one. -/
theorem witness_PowerUpDrawsLastLatencyEdges :
    0 < (State.powerUp 1).latency ∧ (State.powerUp 1).boot = .neverReset ∧
      (Stimulus.request 0x200001234#34).noReset = true ∧
      ({ State.powerUp 1 with driver := [.request 0x200001234#34] } : State).driver = [.request 0x200001234#34] ++ [] ∧
      resetting.rst = true ∧
      ({ State.powerUp 1 with driver := [.ports resetting, .idle] } : State).driver = .ports resetting :: ([] ++ [.idle]) ∧
      ([] : List Stimulus).length < (State.powerUp 1).latency ∧
      ({ State.powerUp 1 with driver := [.ports resetting, .idle] } : State).driver = .ports resetting :: ([.idle] ++ []) ∧
      (State.powerUp 1).latency ≤ ([.idle] : List Stimulus).length := by decide

theorem witness_StepKeepsBootBounded :
    ({ ready 2 [] with boot := .wasReset 2 } : State).bootBounded = true ∧
      ({ ready 2 [] with boot := .wasReset 2 } : State).beenReset = true ∧
      step { ready 2 [] with boot := .wasReset 2 } =
        .next ({ ready 2 [] with boot := .wasReset 2 } : State).driveIdle.acceptEdge := ⟨by decide, by decide, rfl⟩

theorem witness_QueuesKeepRequestOrder :
    (ready 2 [.ports bothUnits, .idle, .request 0x300000000#34]).queuesFull ∧
      (ready 2 [.ports bothUnits, .idle, .request 0x300000000#34]).driver =
        [.ports bothUnits, .idle, .request 0x300000000#34] ++ [] ∧
      ∀ x ∈ ([.ports bothUnits, .idle, .request 0x300000000#34] : List Stimulus), x.noReset = true := by decide

theorem witness_ResultAppearsAfterLatencyEdges :
    (ready 2 [.ports bothUnits, .idle]).queuesFull ∧ (ready 2 []).beenReset = true ∧ (ready 2 []).bootBounded = true ∧
      ({ ready 2 [] with boot := .wasReset 2 } : State).bootBounded = true ∧
      (ready 2 []).latency = ([.idle] : List Stimulus).length + 1 ∧
      (ready 2 [.ports bothUnits, .idle]).driver = .ports bothUnits :: ([.idle] ++ []) ∧
      (Stimulus.ports bothUnits).noReset = true ∧ (∀ y ∈ ([.idle] : List Stimulus), y.noReset = true) ∧
      (Stimulus.ports bothUnits).encSlot = some (.raw 0xABCD) ∧ (Stimulus.ports bothUnits).decSlot = some 0x5EDF ∧
      0 < (ready 1 []).latency ∧ (ready 1 [.ports resetting]).driver = [.ports resetting] ∧ resetting.rst = true := by
  decide

theorem witness_OperationsChangeOnlyTheirUnit : (ready 0 []).latency = 0 ∧ 0 < (ready 1 []).latency := by decide

theorem witness_ResultIndependentOfTimeAndHistory :
    (ready 0 [.request 0x200001234#34]).queuesFull ∧ (ready 2 [.request 0x200001234#34, .idle]).queuesFull ∧
      ((State.powerUp 0).latency = 0 ∨ ((State.powerUp 0).beenReset = true ∧ (State.powerUp 0).bootBounded = true)) ∧
      ((ready 2 []).latency = 0 ∨ ((ready 2 []).beenReset = true ∧ (ready 2 []).bootBounded = true)) ∧
      decode 0x200001234#34 = .ok (.dec 0x1234) ∧
      (ready 0 [.request 0x200001234#34]).driver = .request 0x200001234#34 :: ([] ++ []) ∧
      ([] : List Stimulus).length + 1 = max 1 (ready 0 []).latency ∧
      (ready 2 [.request 0x200001234#34, .idle]).driver = .request 0x200001234#34 :: ([.idle] ++ []) ∧
      ([.idle] : List Stimulus).length + 1 = max 1 (ready 2 []).latency ∧
      ∀ y ∈ ([.idle] : List Stimulus), y.noReset = true := by decide

/-- The encoder's clause: two blocks whose decoders are asked different things. -/
theorem witness_UnitsShareNothing_encoder :
    (ready 1 [.ports bothUnits]).latency = (ready 1 [.request 0x10000ABCD#34]).latency ∧
      (ready 1 [.ports bothUnits]).boot = (ready 1 [.request 0x10000ABCD#34]).boot ∧ 0 < (ready 1 []).latency ∧
      (nextStimulus (ready 1 [.ports bothUnits])).noReset = (nextStimulus (ready 1 [.request 0x10000ABCD#34])).noReset ∧
      step (ready 1 [.ports bothUnits]) = .next ((ready 1 []).drivePorts bothUnits).acceptEdge ∧
      step (ready 1 [.request 0x10000ABCD#34]) = .next ((ready 1 []).driveEncRaw 0xABCD).acceptEdge ∧
      (nextStimulus (ready 1 [.ports bothUnits])).encSlot = (nextStimulus (ready 1 [.request 0x10000ABCD#34])).encSlot ∧
      ((ready 1 []).drivePorts bothUnits).acceptEdge.encResultReady :=
  ⟨rfl, rfl, by decide, rfl, rfl, rfl, by decide, by decide⟩

/-- The decoder's clause: two blocks whose encoders are asked different things. -/
theorem witness_UnitsShareNothing_decoder :
    step (ready 1 [.request 0x200005EDF#34]) = .next ((ready 1 []).driveDec 0x5EDF).acceptEdge ∧
      step (ready 1 [.ports bothUnits]) = .next ((ready 1 []).drivePorts bothUnits).acceptEdge ∧
      (nextStimulus (ready 1 [.ports bothUnits])).decSlot = (nextStimulus (ready 1 [.request 0x200005EDF#34])).decSlot ∧
      ((ready 1 []).drivePorts bothUnits).acceptEdge.decResultReady :=
  ⟨rfl, rfl, by decide, by decide⟩

/-- The combinational clauses, for each unit. -/
theorem witness_UnitsShareNothing_combinational :
    (ready 0 []).latency = 0 ∧ step (ready 0 [.ports bothUnits]) = .next ((ready 0 []).drivePorts bothUnits) ∧
      step (ready 0 [.request 0x10000ABCD#34]) = .next ((ready 0 []).driveEncRaw 0xABCD) ∧
      step (ready 0 [.request 0x200005EDF#34]) = .next ((ready 0 []).driveDec 0x5EDF) ∧
      (nextStimulus (ready 0 [.ports bothUnits])).encSlot = some (.raw 0xABCD) ∧
      (nextStimulus (ready 0 [.request 0x10000ABCD#34])).encSlot = some (.raw 0xABCD) ∧
      (nextStimulus (ready 0 [.ports bothUnits])).decSlot = some 0x5EDF ∧
      (nextStimulus (ready 0 [.request 0x200005EDF#34])).decSlot = some 0x5EDF :=
  ⟨rfl, rfl, rfl, rfl, by decide, by decide, by decide, by decide⟩

theorem witness_EqualCountersDrawAlike :
    (State.powerUp 1).draws = (State.powerUp 1).draws ∧ 0 < (State.powerUp 1).latency ∧
      (nextStimulus { State.powerUp 1 with driver := [.request 0x200005EDF#34] }).encSlot =
        (nextStimulus (State.powerUp 1)).encSlot ∧
      (nextStimulus { State.powerUp 1 with driver := [.request 0x10000ABCD#34] }).decSlot =
        (nextStimulus (State.powerUp 1)).decSlot ∧
      step { State.powerUp 1 with driver := [.request 0x200005EDF#34] } =
        .next ((State.powerUp 1).driveDec 0x5EDF).acceptEdge ∧
      step { State.powerUp 1 with driver := [.request 0x10000ABCD#34] } =
        .next ((State.powerUp 1).driveEncRaw 0xABCD).acceptEdge ∧
      step (State.powerUp 1) = .next (State.powerUp 1).driveIdle.acceptEdge :=
  ⟨rfl, by decide, by decide, by decide, rfl, rfl, rfl⟩

theorem witness_OtherUnitsOutputsStay : (ready 0 []).latency = 0 ∧ nextStimulus (ready 0 []) = .idle := by decide

theorem witness_ResultsAreDeliveredWhole :
    (ready 0 []).decResultReady ∧ (ready 0 []).encResultReady ∧
      ({ ready 1 [] with decPipe := [some 0x1234#16], encPipe := [some (.raw 0x1234#16)] } : State).decResultReady ∧
      ({ ready 1 [] with decPipe := [some 0x1234#16], encPipe := [some (.raw 0x1234#16)] } : State).encResultReady := by
  decide

theorem witness_InstancesAreIndependent :
    (0 : Nat) ≠ 1 ∧ ([ready 0 [], ready 2 []] : Instances)[0]? = some (ready 0 []) ∧
      ([ready 0 [], ready 2 []] : Instances)[1]? = some (ready 2 []) ∧
      step (ready 0 []) = .next (ready 0 []).driveIdle ∧ step (ready 2 []) = .next (ready 2 []).driveIdle.acceptEdge :=
  ⟨by decide, rfl, rfl, rfl, rfl⟩

theorem witness_StoredPixelIsLittleEndian :
    0 + 1 < ([0, 0] : Buffer).length ∧ memRead [0xDF, 0x5E] 0 = some 0xDF ∧ memRead [0xDF, 0x5E] (0 + 1) = some 0x5E := by
  decide

end Sys2Proof.Tests
end

section
/-! SUPPORT. What a step leaves of each unit, and what each output port is a function of: the layer under the statements
about the two units (R2, R7, R15). -/

namespace Sys2Proof.Machine

/-! ### The sampled slots (R73) -/

theorem sampledEnc_eq_some_iff {x : Inputs} {e : EncIn} :
    sampledEnc x = some e ↔ x.encInValid = true ∧ encOperand x = e := by
  cases h : x.encInValid <;> simp [sampledEnc, h]

theorem sampledDec_eq_some_iff {x : Inputs} {p : Pixel} :
    sampledDec x = some p ↔ x.decInValid = true ∧ x.decPix = p := by
  cases h : x.decInValid <;> simp [sampledDec, h]

/-! ### One step -/

theorem nextStimulus_of_driver {s : State} {x : Stimulus} {rest : List Stimulus} (h : s.driver = x :: rest) :
    nextStimulus s = x := by
  simp [nextStimulus, h]

/-- A step answers one state only, so a hypothesis about its answer names that state. -/
theorem eq_of_step_next {s t : State} (h : step s = .next t) :
    t = (presented (nextStimulus s) s.dropStimulus).clockEdge := by
  rw [step_eq_presented] at h
  injection h with h
  exact h.symm

theorem step_of_ports {s : State} {x : Inputs} (h : nextStimulus s = .ports x) :
    step s = .next (s.dropStimulus.drivePorts x).clockEdge := by
  rw [step_eq_presented, h, presented]

theorem step_of_idle {s : State} (h : nextStimulus s = .idle) : step s = .next s.dropStimulus.driveIdle.clockEdge := by
  rw [step_eq_presented, h, presented]

theorem step_latency {s t : State} (h : step s = .next t) : t.latency = s.latency := by
  simp [eq_of_step_next h]

/-- At the edge of a stimulus without reset each unit takes that stimulus's slot for it; a reset stimulus empties the
queues (R71, R73). Neither queue's new content mentions the other. -/
theorem step_pipes {s t : State} (hs : 0 < s.latency) (h : step s = .next t) :
    t.encPipe = (if (nextStimulus s).noReset = true then pushSlot s.latency s.encPipe (nextStimulus s).encSlot
      else List.replicate s.latency none) ∧
    t.decPipe = (if (nextStimulus s).noReset = true then pushSlot s.latency s.decPipe (nextStimulus s).decSlot
      else List.replicate s.latency none) := by
  rw [eq_of_step_next h]
  cases hr : (nextStimulus s).noReset
  · rw [State.clockEdge_of_reset (by simpa using hs) (by simp [hr])]
    simp
  · rw [State.clockEdge_of_accept (by simpa using hs) (by simp [hr])]
    simp

/-- What a step makes of the power-up draws depends on `rst` alone (R75). -/
theorem step_boot {s t : State} (hs : 0 < s.latency) (h : step s = .next t) :
    t.boot = if (nextStimulus s).noReset = true then bootAtEdge s.boot else bootAtReset s.latency s.boot := by
  rw [eq_of_step_next h, State.clockEdge_boot]
  cases hr : (nextStimulus s).noReset <;> simp [hr, Nat.ne_of_gt hs]

/-- A combinational block's step only drives the ports (R15). -/
theorem eq_presented_of_step_combinational {s t : State} (hs : s.latency = 0) (h : step s = .next t) :
    t = presented (nextStimulus s) s.dropStimulus := by
  rw [eq_of_step_next h, State.clockEdge_of_combinational (by simpa using hs)]

/-- A combinational block's operation only drives the ports (R15, R28). -/
theorem exec_of_combinational {s : State} (i : Instr) (hs : s.latency = 0) : exec i s = .next (driven i s) := by
  rw [exec_eq_driven, State.clockEdge_of_combinational (by simpa using hs)]

/-! ### The output ports -/

theorem State.settled_congr {s t : State} (h : s.boot = t.boot) : s.settled = t.settled := by
  simp [State.settled, h]

theorem State.encPix_of_combinational {s : State} (h : s.latency = 0) :
    s.encPix = encodePixel (encOperand s.inputs) := by
  simp [State.encPix, h]

theorem State.decOut_of_combinational {s : State} (h : s.latency = 0) : s.decOut = decodePixel s.inputs.decPix := by
  simp [State.decOut, h]

theorem State.encPix_of_shown {s : State} {e : EncIn} (h : 0 < s.latency) (hset : s.settled = true)
    (he : shownSlot s.encPipe = some e) : s.encPix = encodePixel e := by
  simp [State.encPix, hset, he, Nat.ne_of_gt h]

theorem State.decOut_of_shown {s : State} {p : Pixel} (h : 0 < s.latency) (hset : s.settled = true)
    (hp : shownSlot s.decPipe = some p) : s.decOut = decodePixel p := by
  simp [State.decOut, hset, hp, Nat.ne_of_gt h]

theorem State.encOutValid_of_settled {s : State} (h : 0 < s.latency) (hset : s.settled = true) :
    s.encOutValid = some (shownSlot s.encPipe).isSome := by
  simp [State.encOutValid, hset, Nat.ne_of_gt h]

theorem State.decOutValid_of_settled {s : State} (h : 0 < s.latency) (hset : s.settled = true) :
    s.decOutValid = some (shownSlot s.decPipe).isSome := by
  simp [State.decOutValid, hset, Nat.ne_of_gt h]

theorem State.encResultReady_iff {s : State} (h : 0 < s.latency) :
    s.encResultReady ↔ s.settled = true ∧ ∃ e, shownSlot s.encPipe = some e := by
  simp [State.encResultReady, Option.isSome_iff_exists, Nat.ne_of_gt h]

theorem State.decResultReady_iff {s : State} (h : 0 < s.latency) :
    s.decResultReady ↔ s.settled = true ∧ ∃ p, shownSlot s.decPipe = some p := by
  simp [State.decResultReady, Option.isSome_iff_exists, Nat.ne_of_gt h]

/-! ### What a pipelined unit shows is fixed by its own queue -/

section

variable {t t' : State}

theorem State.encOutValid_congr (ht : 0 < t.latency) (hl : t.latency = t'.latency) (hb : t.boot = t'.boot)
    (hp : t.encPipe = t'.encPipe) (hset : t.settled = true) : t.encOutValid = t'.encOutValid := by
  rw [State.encOutValid_of_settled ht hset,
    State.encOutValid_of_settled (hl ▸ ht) (State.settled_congr hb ▸ hset), hp]

theorem State.decOutValid_congr (ht : 0 < t.latency) (hl : t.latency = t'.latency) (hb : t.boot = t'.boot)
    (hp : t.decPipe = t'.decPipe) (hset : t.settled = true) : t.decOutValid = t'.decOutValid := by
  rw [State.decOutValid_of_settled ht hset,
    State.decOutValid_of_settled (hl ▸ ht) (State.settled_congr hb ▸ hset), hp]

theorem State.encResult_congr (ht : 0 < t.latency) (hl : t.latency = t'.latency) (hb : t.boot = t'.boot)
    (hp : t.encPipe = t'.encPipe) (hready : t.encResultReady) : t'.encResultReady ∧ t.encPix = t'.encPix := by
  obtain ⟨hset, e, he⟩ := (State.encResultReady_iff ht).1 hready
  have ht' : 0 < t'.latency := hl ▸ ht
  have hset' : t'.settled = true := State.settled_congr hb ▸ hset
  have he' : shownSlot t'.encPipe = some e := hp ▸ he
  refine ⟨(State.encResultReady_iff ht').2 ⟨hset', e, he'⟩, ?_⟩
  rw [State.encPix_of_shown ht hset he, State.encPix_of_shown ht' hset' he']

theorem State.decResult_congr (ht : 0 < t.latency) (hl : t.latency = t'.latency) (hb : t.boot = t'.boot)
    (hp : t.decPipe = t'.decPipe) (hready : t.decResultReady) : t'.decResultReady ∧ t.decOut = t'.decOut := by
  obtain ⟨hset, p, hshown⟩ := (State.decResultReady_iff ht).1 hready
  have ht' : 0 < t'.latency := hl ▸ ht
  have hset' : t'.settled = true := State.settled_congr hb ▸ hset
  have hshown' : shownSlot t'.decPipe = some p := hp ▸ hshown
  refine ⟨(State.decResultReady_iff ht').2 ⟨hset', p, hshown'⟩, ?_⟩
  rw [State.decOut_of_shown ht hset hshown, State.decOut_of_shown ht' hset' hshown']

end

/-! ### What a combinational unit shows is fixed by its own request -/

theorem step_encPix_of_combinational {s t : State} {e : EncIn} (hs : s.latency = 0) (h : step s = .next t)
    (he : (nextStimulus s).encSlot = some e) : t.encPix = encodePixel e := by
  have hin : sampledEnc t.inputs = some e := by
    rw [eq_presented_of_step_combinational hs h, sampledEnc_presented, he]
  rw [State.encPix_of_combinational ((step_latency h).trans hs), (sampledEnc_eq_some_iff.1 hin).2]

theorem step_decOut_of_combinational {s t : State} {p : Pixel} (hs : s.latency = 0) (h : step s = .next t)
    (hp : (nextStimulus s).decSlot = some p) : t.decOut = decodePixel p := by
  have hin : sampledDec t.inputs = some p := by
    rw [eq_presented_of_step_combinational hs h, sampledDec_presented, hp]
  rw [State.decOut_of_combinational ((step_latency h).trans hs), (sampledDec_eq_some_iff.1 hin).2]

/-! ### Ports an operation does not name (log 2) -/

/-- The encoder's combinational output reads the ports of its operand alone. -/
theorem State.encPix_congr_combinational {s t : State} (hs : s.latency = 0) (ht : t.latency = 0)
    (h : encOperand t.inputs = encOperand s.inputs) : t.encPix = s.encPix := by
  rw [State.encPix_of_combinational hs, State.encPix_of_combinational ht, h]

/-- The decoder's combinational output reads `dec_pix` alone. -/
theorem State.decOut_congr_combinational {s t : State} (hs : s.latency = 0) (ht : t.latency = 0)
    (h : t.inputs.decPix = s.inputs.decPix) : t.decOut = s.decOut := by
  rw [State.decOut_of_combinational hs, State.decOut_of_combinational ht, h]

theorem encOperand_driveDec (s : State) (p : Pixel) : encOperand (s.driveDec p).inputs = encOperand s.inputs := rfl

theorem encOperand_driveIdle (s : State) : encOperand s.driveIdle.inputs = encOperand s.inputs := rfl

theorem decPix_driveEnc (s : State) (r g b a : Byte) : (s.driveEnc r g b a).inputs.decPix = s.inputs.decPix := rfl

theorem decPix_driveEncRaw (s : State) (p : Pixel) : (s.driveEncRaw p).inputs.decPix = s.inputs.decPix := rfl

theorem decPix_driveIdle (s : State) : s.driveIdle.inputs.decPix = s.inputs.decPix := rfl

end Sys2Proof.Machine
end

section
/-! PROOFS. The statements about the two units of one block (spec/10_state.md). -/

namespace Sys2Proof.Machine

/-- Settles O42: a step's effect on a unit is written by `step_pipes` and `step_boot` without the other unit, and each
output is a function of its unit's queue, LATENCY and `boot` alone. -/
theorem unitsShareNothing : Obligations.UnitsShareNothing := by
  refine ⟨fun s s' t t' hl hb hs hr h h' => ?_, fun s s' t t' hs hs' h h' => ?_⟩
  · have hs' : 0 < s'.latency := hl ▸ hs
    have ht : 0 < t.latency := (step_latency h).symm ▸ hs
    have hl' : t.latency = t'.latency := by rw [step_latency h, step_latency h', hl]
    have hb' : t.boot = t'.boot := by rw [step_boot hs h, step_boot hs' h', hr, hb, hl]
    obtain ⟨henc, hdec⟩ := step_pipes hs h
    obtain ⟨henc', hdec'⟩ := step_pipes hs' h'
    constructor
    · intro hp hslot
      have hp' : t.encPipe = t'.encPipe := by rw [henc, henc', hr, hl, hp, hslot]
      exact ⟨hp', State.encOutValid_congr ht hl' hb' hp', State.encResult_congr ht hl' hb' hp'⟩
    · intro hp hslot
      have hp' : t.decPipe = t'.decPipe := by rw [hdec, hdec', hr, hl, hp, hslot]
      exact ⟨hp', State.decOutValid_congr ht hl' hb' hp', State.decResult_congr ht hl' hb' hp'⟩
  · exact ⟨fun e he he' => ⟨step_encPix_of_combinational hs h he, step_encPix_of_combinational hs' h' he'⟩,
      fun p hp hp' => ⟨step_decOut_of_combinational hs h hp, step_decOut_of_combinational hs' h' hp'⟩⟩

/-- Settles O31: the edge is an accepting one, and each unit samples its own ports. -/
theorem bothUnitsAcceptAtOneEdge : Obligations.BothUnitsAcceptAtOneEdge := by
  intro s x rest hdriver hs hrst henc hdec
  have hstep : step s = .next (s.dropStimulus.drivePorts x).acceptEdge := by
    rw [step_of_ports (nextStimulus_of_driver hdriver),
      State.clockEdge_of_accept (by simpa using hs) (by simpa using hrst)]
  have hsampledEnc : sampledEnc x = some (encOperand x) := sampledEnc_eq_some_iff.2 ⟨henc, rfl⟩
  have hsampledDec : sampledDec x = some x.decPix := sampledDec_eq_some_iff.2 ⟨hdec, rfl⟩
  exact ⟨_, hstep, by simp [hsampledEnc], by simp [hsampledDec], by simp, by simp [hdriver], by simp⟩

/-- Settles O44: a combinational step only drives ports, and none of these drives a port the other unit's outputs
read. -/
theorem otherUnitsOutputsStay : Obligations.OtherUnitsOutputsStay := by
  intro s hs
  refine ⟨fun p => ?dec, fun p => ?encRaw, fun r g b a => ?enc, fun hidle => ?idle⟩
  case dec =>
    exact ⟨s.driveDec p, exec_of_combinational (.dec p) hs,
      State.encPix_congr_combinational hs hs (encOperand_driveDec s p)⟩
  case encRaw =>
    exact ⟨s.driveEncRaw p, exec_of_combinational (.encRaw p) hs,
      State.decOut_congr_combinational hs hs (decPix_driveEncRaw s p)⟩
  case enc =>
    exact ⟨s.driveEnc r g b a, exec_of_combinational (.enc r g b a) hs,
      State.decOut_congr_combinational hs hs (decPix_driveEnc s r g b a)⟩
  case idle =>
    have hstep : step s = .next s.dropStimulus.driveIdle := by
      rw [step_of_idle hidle, State.clockEdge_of_combinational (by simpa using hs)]
    exact ⟨_, hstep, State.encPix_congr_combinational hs hs (encOperand_driveIdle s.dropStimulus),
      State.decOut_congr_combinational hs hs (decPix_driveIdle s.dropStimulus)⟩

end Sys2Proof.Machine
end

section
/-! SUPPORT. What a byte buffer reads back after a write of one byte, and of one pixel (R17). -/

namespace Sys2Proof.Machine

/-- A pixel is its high byte over its low byte (R17). -/
theorem pixel_eq_highByte_append_lowByte (p : Pixel) : p.extractLsb' 8 8 ++ p.extractLsb' 0 8 = p := by
  rw [BitVec.extractLsb'_append_extractLsb'_eq_extractLsb' (by decide)]
  exact BitVec.extractLsb'_eq_self

/-! ### One byte -/

theorem memWrite_eq_some_iff {buf b : Buffer} {off : Nat} {v : Byte} :
    memWrite buf off v = some b ↔ off < buf.length ∧ buf.set off v = b := by
  simp [memWrite]

theorem exists_memWrite_of_lt {buf : Buffer} {off : Nat} (v : Byte) (h : off < buf.length) :
    ∃ b, memWrite buf off v = some b :=
  ⟨_, memWrite_eq_some_iff.2 ⟨h, rfl⟩⟩

theorem memWrite_length {buf b : Buffer} {off : Nat} {v : Byte} (h : memWrite buf off v = some b) :
    b.length = buf.length := by
  obtain ⟨-, rfl⟩ := memWrite_eq_some_iff.1 h
  exact List.length_set

theorem memRead_memWrite_same {buf b : Buffer} {off : Nat} {v : Byte} (h : memWrite buf off v = some b) :
    memRead b off = some v := by
  obtain ⟨hlt, rfl⟩ := memWrite_eq_some_iff.1 h
  exact List.getElem?_set_self hlt

theorem memRead_memWrite_ne {buf b : Buffer} {off k : Nat} {v : Byte} (h : memWrite buf off v = some b)
    (hk : k ≠ off) : memRead b k = memRead buf k := by
  obtain ⟨-, rfl⟩ := memWrite_eq_some_iff.1 h
  exact List.getElem?_set_ne hk.symm

/-! ### One pixel -/

/-- A pixel that lies inside the buffer is stored by two byte writes, the low byte first (R17). -/
theorem storePixel_of_fits {buf : Buffer} {off : Nat} (p : Pixel) (h : off + 1 < buf.length) :
    ∃ m b, memWrite buf off (p.extractLsb' 0 8) = some m ∧ memWrite m (off + 1) (p.extractLsb' 8 8) = some b ∧
      storePixel buf off p = some b := by
  obtain ⟨m, hlow⟩ := exists_memWrite_of_lt (p.extractLsb' 0 8) (Nat.lt_of_succ_lt h)
  obtain ⟨b, hhigh⟩ := exists_memWrite_of_lt (p.extractLsb' 8 8) ((memWrite_length hlow).symm ▸ h)
  exact ⟨m, b, hlow, hhigh, by rw [storePixel, if_pos h, hlow, Option.bind_some, hhigh]⟩

theorem loadPixel_of_memRead {buf : Buffer} {off : Nat} {lo hi : Byte} (hlo : memRead buf off = some lo)
    (hhi : memRead buf (off + 1) = some hi) : loadPixel buf off = some (hi ++ lo) := by
  simp [loadPixel, hlo, hhi]

end Sys2Proof.Machine
end

section
/-! SUPPORT. What one step without reset makes of both queues, at every LATENCY, and how such steps chain into a run
(R73). -/

namespace Sys2Proof.Machine

theorem shownSlot_eq_some_iff {α : Type} {pipe : List (Option α)} {a : α} :
    shownSlot pipe = some a ↔ pipe.head? = some (some a) := by
  cases pipe <;> simp

/-- Slots that enter a full queue one after another push out as many from its front, whether the queue is cut at each
edge or once at the end. -/
theorem drop_one_append_drop {α : Type} (pipe : List α) (slot : α) (slots : List α) (n : Nat) :
    ((pipe ++ [slot]).drop 1 ++ slots).drop n = (pipe ++ slot :: slots).drop (n + 1) := by
  rw [← List.drop_append_of_le_length (by simp), List.drop_drop, List.append_assoc, List.singleton_append,
    Nat.add_comm]

theorem step_driver {s t : State} (h : step s = .next t) : t.driver = s.driver.tail := by
  simp [eq_of_step_next h]

theorem step_queuesFull {s t : State} (h : step s = .next t) (hfull : s.queuesFull) : t.queuesFull := by
  rw [eq_of_step_next h]
  exact State.clockEdge_queuesFull (by simpa [State.queuesFull] using hfull)

theorem bootAtEdge_eq_neverReset_iff {b : Boot} : bootAtEdge b = .neverReset ↔ b = .neverReset := by
  cases b <;> simp [bootAtEdge]

theorem State.beenReset_eq_false_iff {s : State} : s.beenReset = false ↔ s.boot = .neverReset := by
  cases h : s.boot <;> simp [State.beenReset, h]

section

variable {s t : State}

/-- A step without reset neither is a first reset nor undoes one (R75). -/
theorem step_beenReset_of_noReset (h : step s = .next t) (hr : (nextStimulus s).noReset = true) :
    t.beenReset = s.beenReset := by
  have hboot : t.boot = .neverReset ↔ s.boot = .neverReset := by
    rcases Nat.eq_zero_or_pos s.latency with hs | hs
    · simp [eq_presented_of_step_combinational hs h]
    · rw [step_boot hs h, if_pos hr, bootAtEdge_eq_neverReset_iff]
  rw [Bool.eq_iff_iff, ← not_iff_not]
  simpa [State.beenReset_eq_false_iff] using hboot

/-- At an edge without reset full queues lose their oldest slot and take the stimulus's; with LATENCY 0 the queues are
empty and the slot goes straight through (R73). -/
theorem step_pipes_of_noReset (h : step s = .next t) (hfull : s.queuesFull)
    (hr : (nextStimulus s).noReset = true) :
    t.encPipe = (s.encPipe ++ [(nextStimulus s).encSlot]).drop 1 ∧
      t.decPipe = (s.decPipe ++ [(nextStimulus s).decSlot]).drop 1 := by
  obtain ⟨henc, hdec⟩ := hfull
  rcases Nat.eq_zero_or_pos s.latency with hs | hs
  · rw [eq_presented_of_step_combinational hs h]
    rw [hs, List.length_eq_zero_iff] at henc hdec
    simp [henc, hdec]
  · simpa [hr, pushSlot_of_full _ _ _ henc, pushSlot_of_full _ _ _ hdec] using step_pipes hs h

end

end Sys2Proof.Machine
end

section
/-! PROOFS. The statements about order, whole results and the stored pixel (spec/20_memory.md). -/

namespace Sys2Proof.Machine

/-- Settles O39, by induction on the stimuli: the first step pushes one slot into each queue, and the rest of the run
starts from full queues again. -/
theorem queuesKeepRequestOrder : Obligations.QueuesKeepRequestOrder := by
  intro s xs
  induction xs generalizing s with
  | nil =>
    intro rest _ hdriver _
    exact ⟨s, core_run_zero s, by simpa using hdriver, rfl, by simp, by simp⟩
  | cons x xs ih =>
    intro rest hfull hdriver hnoReset
    obtain ⟨hx, hxs⟩ := List.forall_mem_cons.1 hnoReset
    have hnext : nextStimulus s = x := nextStimulus_of_driver hdriver
    have hr : (nextStimulus s).noReset = true := hnext ▸ hx
    have hstep := step_eq_presented s
    obtain ⟨henc, hdec⟩ := step_pipes_of_noReset hstep hfull hr
    obtain ⟨u, hrun, hrest, hbeen, huenc, hudec⟩ :=
      ih _ rest (step_queuesFull hstep hfull) (by rw [step_driver hstep, hdriver, List.cons_append, List.tail_cons]) hxs
    refine ⟨u, (core_run_succ _ s).trans hrun, hrest, hbeen.trans (step_beenReset_of_noReset hstep hr), ?_, ?_⟩
    · rw [huenc, henc, hnext]
      exact drop_one_append_drop _ _ _ _
    · rw [hudec, hdec, hnext]
      exact drop_one_append_drop _ _ _ _

/-- Settles O45: with LATENCY 0 the operand is the one on the ports, otherwise that of the oldest slot, and all of a
unit's outputs are one function of it. -/
theorem resultsAreDeliveredWhole : Obligations.ResultsAreDeliveredWhole := by
  intro s
  rcases Nat.eq_zero_or_pos s.latency with hs | hs
  · have hpos : ¬ 0 < s.latency := Nat.not_lt.2 hs.le
    exact ⟨fun _ => ⟨_, State.decOut_of_combinational hs, fun _ => rfl, fun h => absurd h hpos⟩,
      fun _ => ⟨_, State.encPix_of_combinational hs, fun _ => rfl, fun h => absurd h hpos⟩⟩
  · have hzero : s.latency ≠ 0 := hs.ne'
    constructor
    · intro hready
      obtain ⟨hset, p, hp⟩ := (State.decResultReady_iff hs).1 hready
      exact ⟨p, State.decOut_of_shown hs hset hp, fun h => absurd h hzero,
        fun _ => ⟨shownSlot_eq_some_iff.1 hp, by rw [State.decOutValid_of_settled hs hset, hp, Option.isSome_some]⟩⟩
    · intro hready
      obtain ⟨hset, e, he⟩ := (State.encResultReady_iff hs).1 hready
      exact ⟨e, State.encPix_of_shown hs hset he, fun h => absurd h hzero,
        fun _ => ⟨shownSlot_eq_some_iff.1 he, by rw [State.encOutValid_of_settled hs hset, he, Option.isSome_some]⟩⟩

/-- Settles O47: the pixel is stored by two byte writes to different offsets, so each byte reads back as written, and
the high byte over the low byte is the pixel. -/
theorem storedPixelIsLittleEndian : Obligations.StoredPixelIsLittleEndian := by
  refine ⟨fun buf off p h => ?_, fun _ _ _ _ => loadPixel_of_memRead, by decide⟩
  obtain ⟨m, b, hlow, hhigh, hstore⟩ := storePixel_of_fits p h
  have hreadLow : memRead b off = some (p.extractLsb' 0 8) :=
    (memRead_memWrite_ne hhigh (Nat.ne_of_lt off.lt_succ_self)).trans (memRead_memWrite_same hlow)
  have hreadHigh : memRead b (off + 1) = some (p.extractLsb' 8 8) := memRead_memWrite_same hhigh
  refine ⟨b, hstore, (memWrite_length hhigh).trans (memWrite_length hlow), hreadLow, hreadHigh, ?_, ?_⟩
  · rw [loadPixel_of_memRead hreadLow hreadHigh, pixel_eq_highByte_append_lowByte]
  · intro k hk hk'
    exact (memRead_memWrite_ne hhigh hk').trans (memRead_memWrite_ne hlow hk)

end Sys2Proof.Machine
end

section
/-! SUPPORT. The encoding (spec/30_encoding.md): where a field stands in a concatenation, what the decoder answers for
each operation code (R30), and the words of R28 read back. -/

namespace Sys2Proof

/-! ### The fields of a concatenation -/

section

variable {w₁ w₂ w₃ w₄ w₅ : Nat} (x₁ : BitVec w₁) (x₂ : BitVec w₂) (x₃ : BitVec w₃) (x₄ : BitVec w₄) (x₅ : BitVec w₅)

theorem extractLsb'_add_append (start len : Nat) :
    (x₁ ++ x₂).extractLsb' (w₂ + start) len = x₁.extractLsb' start len := by
  rw [BitVec.extractLsb'_append_eq_of_le (Nat.le_add_right _ _), Nat.add_sub_cancel_left]

theorem fields_append₃ :
    (x₁ ++ x₂ ++ x₃).extractLsb' (w₃ + w₂) w₁ = x₁ ∧ (x₁ ++ x₂ ++ x₃).extractLsb' w₃ w₂ = x₂ ∧
      (x₁ ++ x₂ ++ x₃).extractLsb' 0 w₃ = x₃ := by
  have peel := extractLsb'_add_append (x₁ ++ x₂) x₃
  exact ⟨(peel _ _).trans BitVec.extractLsb'_append_eq_left, (peel 0 _).trans BitVec.extractLsb'_append_eq_right,
    BitVec.extractLsb'_append_eq_right⟩

theorem fields_append₄ :
    (x₁ ++ x₂ ++ x₃ ++ x₄).extractLsb' (w₄ + (w₃ + w₂)) w₁ = x₁ ∧
      (x₁ ++ x₂ ++ x₃ ++ x₄).extractLsb' (w₄ + w₃) w₂ = x₂ ∧ (x₁ ++ x₂ ++ x₃ ++ x₄).extractLsb' w₄ w₃ = x₃ ∧
      (x₁ ++ x₂ ++ x₃ ++ x₄).extractLsb' 0 w₄ = x₄ := by
  obtain ⟨h₁, h₂, h₃⟩ := fields_append₃ x₁ x₂ x₃
  have peel := extractLsb'_add_append (x₁ ++ x₂ ++ x₃) x₄
  exact ⟨(peel _ _).trans h₁, (peel _ _).trans h₂, (peel 0 _).trans h₃, BitVec.extractLsb'_append_eq_right⟩

theorem fields_append₅ :
    (x₁ ++ x₂ ++ x₃ ++ x₄ ++ x₅).extractLsb' (w₅ + (w₄ + (w₃ + w₂))) w₁ = x₁ ∧
      (x₁ ++ x₂ ++ x₃ ++ x₄ ++ x₅).extractLsb' (w₅ + (w₄ + w₃)) w₂ = x₂ ∧
      (x₁ ++ x₂ ++ x₃ ++ x₄ ++ x₅).extractLsb' (w₅ + w₄) w₃ = x₃ ∧
      (x₁ ++ x₂ ++ x₃ ++ x₄ ++ x₅).extractLsb' w₅ w₄ = x₄ ∧ (x₁ ++ x₂ ++ x₃ ++ x₄ ++ x₅).extractLsb' 0 w₅ = x₅ := by
  obtain ⟨h₁, h₂, h₃, h₄⟩ := fields_append₄ x₁ x₂ x₃ x₄
  have peel := extractLsb'_add_append (x₁ ++ x₂ ++ x₃ ++ x₄) x₅
  exact ⟨(peel _ _).trans h₁, (peel _ _).trans h₂, (peel _ _).trans h₃, (peel 0 _).trans h₄,
    BitVec.extractLsb'_append_eq_right⟩

end

/-! ### The decoder, one equation an operation code (R30) -/

section

variable {w : RequestWord}

theorem decode_of_op_enc (h : opOf w = 0b00#2) :
    decode w = .ok (.enc (w.extractLsb' 16 8) (w.extractLsb' 8 8) (w.extractLsb' 0 8) (w.extractLsb' 24 8)) := by
  simp [decode, h]

theorem decode_of_op_encRaw (h : opOf w = 0b01#2) : decode w = .ok (.encRaw (w.extractLsb' 0 16)) := by
  simp [decode, h]

theorem decode_of_op_dec (h : opOf w = 0b10#2) : decode w = .ok (.dec (w.extractLsb' 0 16)) := by
  simp [decode, h]

theorem decode_of_op_reserved (h : opOf w = 0b11#2) : decode w = .error .reservedOp := by
  simp [decode, h]

theorem op_cases (op : BitVec 2) : op = 0b00#2 ∨ op = 0b01#2 ∨ op = 0b10#2 ∨ op = 0b11#2 := by
  revert op
  decide

/-- A word that decodes carries the operation code of its operation. -/
theorem opOf_of_decode_ok {i : Instr} (h : decode w = .ok i) : opOf w = Laws.OpCode.code i := by
  rcases op_cases (opOf w) with hop | hop | hop | hop
  · cases (decode_of_op_enc hop).symm.trans h
    exact hop
  · cases (decode_of_op_encRaw hop).symm.trans h
    exact hop
  · cases (decode_of_op_dec hop).symm.trans h
    exact hop
  · cases (decode_of_op_reserved hop).symm.trans h

/-- Only the reserved code is rejected (R31). -/
theorem opOf_of_decode_error {e : DecodeError} (h : decode w = .error e) : opOf w = 0b11#2 := by
  rcases op_cases (opOf w) with hop | hop | hop | hop
  · cases (decode_of_op_enc hop).symm.trans h
  · cases (decode_of_op_encRaw hop).symm.trans h
  · cases (decode_of_op_dec hop).symm.trans h
  · exact hop

end

/-! ### The words of R28 -/

theorem decode_encWord (r g b a : Byte) : decode (0b00#2 ++ a ++ r ++ g ++ b) = .ok (.enc r g b a) := by
  obtain ⟨hop, ha, hr, hg, hb⟩ := fields_append₅ 0b00#2 a r g b
  rw [decode_of_op_enc hop]
  simp only [hr, hg, hb, ha]

theorem decode_encRawWord (x : BitVec 16) (p : Pixel) : decode (0b01#2 ++ x ++ p) = .ok (.encRaw p) := by
  obtain ⟨hop, -, hp⟩ := fields_append₃ 0b01#2 x p
  rw [decode_of_op_encRaw hop]
  simp only [hp]

theorem decode_decWord (x : BitVec 16) (p : Pixel) : decode (0b10#2 ++ x ++ p) = .ok (.dec p) := by
  obtain ⟨hop, -, hp⟩ := fields_append₃ 0b10#2 x p
  rw [decode_of_op_dec hop]
  simp only [hp]

theorem decode_reservedWord (payload : BitVec 32) : decode (0b11#2 ++ payload) = .error .reservedOp :=
  decode_of_op_reserved BitVec.extractLsb'_append_eq_left

/-- The decoder drops the ignored bits of ENC.RAW and DEC (R32). -/
theorem exists_decode_pixelWord {op : BitVec 2} (hop : op = 0b01#2 ∨ op = 0b10#2) (p : Pixel) :
    ∃ i, ∀ x : BitVec 16, decode (op ++ x ++ p) = .ok i := by
  rcases hop with rfl | rfl
  · exact ⟨.encRaw p, fun x => decode_encRawWord x p⟩
  · exact ⟨.dec p, fun x => decode_decWord x p⟩

theorem decode_encode_ok (i : Instr) : decode (encode i) = .ok i := by
  cases i with
  | enc r g b a => exact decode_encWord r g b a
  | encRaw p => exact decode_encRawWord 0#16 p
  | dec p => exact decode_decWord 0#16 p

/-! ### The ignored bits (R32) -/

section

variable {w : RequestWord}

theorem ignoredBits_of_op_enc (h : opOf w = 0b00#2) : ignoredBits w = 0#34 := by
  simp [ignoredBits, h]

theorem ignoredBits_of_op_pixel (h : opOf w = 0b01#2 ∨ opOf w = 0b10#2) : ignoredBits w = 0x0FFFF0000#34 :=
  if_pos h

end

/-- A pixel's word whose bits `w[31:16]` are 0 is 0 under the mask of these bits. -/
theorem pixelWord_and_mask (op : BitVec 2) (p : Pixel) : (op ++ 0#16 ++ p) &&& 0x0FFFF0000#34 = 0#34 := by
  have hmask : 0x0FFFF0000#34 = 0#2 ++ BitVec.allOnes 16 ++ 0#16 := by decide
  rw [hmask, BitVec.and_append, BitVec.and_append, BitVec.and_zero, BitVec.zero_and, BitVec.and_zero]
  rfl

theorem encode_and_ignoredBits (i : Instr) : encode i &&& ignoredBits (encode i) = 0#34 := by
  cases i with
  | enc r g b a => rw [ignoredBits_of_op_enc (Laws.OpCode.enc r g b a), BitVec.and_zero]
  | encRaw p =>
    rw [ignoredBits_of_op_pixel (.inl (Laws.OpCode.encRaw p))]
    exact pixelWord_and_mask 0b01#2 p
  | dec p =>
    rw [ignoredBits_of_op_pixel (.inr (Laws.OpCode.dec p))]
    exact pixelWord_and_mask 0b10#2 p

end Sys2Proof
end

section
/-! SUPPORT. A request word met by one step (R28, R57), the layout of the result word (R29) and of a pixel (R26). -/

namespace Sys2Proof.Machine

/-! ### One request word -/

/-- The step on a request word that decodes: its operation's ports driven, one edge (R28). -/
theorem step_of_request {s : State} {w : RequestWord} {i : Instr} (h : nextStimulus s = .request w)
    (hdecode : decode w = .ok i) : step s = .next (driven i s.dropStimulus).clockEdge := by
  rw [step_eq_presented, h]
  simp only [presented, hdecode]

/-- What a request word leaves on the input ports: what its operation drives there, the edge changing none. -/
theorem exists_step_of_request {s : State} {w : RequestWord} {rest : List Stimulus} {i : Instr}
    (h : s.driver = .request w :: rest) (hdecode : decode w = .ok i) :
    ∃ t, step s = .next t ∧ t.inputs = (driven i s).inputs := by
  refine ⟨_, step_of_request (nextStimulus_of_driver h) hdecode, ?_⟩
  rw [State.clockEdge_inputs]
  cases i <;> rfl

theorem encOperand_driveEnc (s : State) (r g b a : Byte) :
    encOperand (s.driveEnc r g b a).inputs = .generic r g b a := rfl

theorem encOperand_driveEncRaw (s : State) (p : Pixel) : encOperand (s.driveEncRaw p).inputs = .raw p := rfl

/-- A step sees of a request word only what it decodes to. -/
theorem step_congr_decode {w w' : RequestWord} (h : decode w = decode w') (s : State) (rest : List Stimulus) :
    step { s with driver := .request w :: rest } = step { s with driver := .request w' :: rest } := by
  show presentRequest w { s with driver := rest } = presentRequest w' { s with driver := rest }
  simp only [presentRequest, h]

theorem requestOutcome_congr_decode {w w' : RequestWord} (h : decode w = decode w') :
    requestOutcome w = requestOutcome w' := by
  simp only [requestOutcome, h]

theorem requestOutcome_of_decode_ok {w : RequestWord} {i : Instr} (h : decode w = .ok i) :
    requestOutcome w = .result (resultWord i) := by
  simp only [requestOutcome, h]

/-! ### Result words (R29) -/

/-- ENC's alpha takes no part in its result (R36). -/
theorem resultWord_enc_congr_alpha (r g b a a' : Byte) : resultWord (.enc r g b a) = resultWord (.enc r g b a') := rfl

theorem decResultWord_fields (d : DecOut) :
    (decResultWord d).extractLsb' 48 16 = d.a ∧ (decResultWord d).extractLsb' 32 16 = d.r ∧
      (decResultWord d).extractLsb' 16 16 = d.g ∧ (decResultWord d).extractLsb' 0 16 = d.b :=
  fields_append₄ d.a d.r d.g d.b

/-- A combinational block whose ports an operation drives shows that operation's result word. -/
theorem shownWord_driven {s : State} (i : Instr) (hs : s.latency = 0) : (driven i s).shownWord i = resultWord i := by
  have hcomb : (driven i s).latency = 0 := (driven_latency i s).trans hs
  cases i with
  | enc r g b a => exact congrArg encResultWord (State.encPix_of_combinational hcomb)
  | encRaw p => exact congrArg encResultWord (State.encPix_of_combinational hcomb)
  | dec p => exact congrArg decResultWord (State.decOut_of_combinational hcomb)

/-! ### Pixels (R26) -/

theorem append_fields (p : Pixel) : redField p ++ greenField p ++ blueField p = p := by
  have hhigh : redField p ++ greenField p = p.extractLsb' 5 11 :=
    BitVec.extractLsb'_append_extractLsb'_eq_extractLsb' rfl
  rw [hhigh]
  exact BitVec.extractLsb'_append_extractLsb'

theorem fields_packFields (r5 : BitVec 5) (g6 : BitVec 6) (b5 : BitVec 5) :
    redField (packFields r5 g6 b5) = r5 ∧ greenField (packFields r5 g6 b5) = g6 ∧
      blueField (packFields r5 g6 b5) = b5 := by
  rw [packFields_eq_append]
  exact fields_append₃ r5 g6 b5

end Sys2Proof.Machine
end

section
/-! SUPPORT. The assembler (R35): the value of a literal digit by digit, a literal as a field, the operation of a line. -/

namespace Sys2Proof.Machine

/-! ### Literals -/

theorem digitsValue_append_singleton (base : Nat) (ds : List Nat) (d : Nat) :
    digitsValue base (ds ++ [d]) = base * digitsValue base ds + d := by
  simp [digitsValue, Nat.mul_comm]

theorem literalValue_decimal_eq_some_iff {ds : List (Fin 10)} {v : Nat} :
    literalValue (.decimal ds) = some v ↔ ds ≠ [] ∧ digitsValue 10 (ds.map (fun d => d.val)) = v := by
  cases ds <;> simp [literalValue]

theorem literalValue_hex_eq_some_iff {ds : List (Fin 16)} {v : Nat} :
    literalValue (.hex ds) = some v ↔ ds ≠ [] ∧ digitsValue 16 (ds.map (fun d => d.val)) = v := by
  cases ds <;> simp [literalValue]

theorem literalValue_decimal_append {ds : List (Fin 10)} {v : Nat} (d : Fin 10)
    (h : literalValue (.decimal ds) = some v) : literalValue (.decimal (ds ++ [d])) = some (10 * v + d.val) := by
  obtain ⟨-, rfl⟩ := literalValue_decimal_eq_some_iff.1 h
  exact literalValue_decimal_eq_some_iff.2
    ⟨List.concat_ne_nil d ds, by rw [List.map_append]; exact digitsValue_append_singleton _ _ _⟩

theorem literalValue_hex_append {ds : List (Fin 16)} {v : Nat} (d : Fin 16)
    (h : literalValue (.hex ds) = some v) : literalValue (.hex (ds ++ [d])) = some (16 * v + d.val) := by
  obtain ⟨-, rfl⟩ := literalValue_hex_eq_some_iff.1 h
  exact literalValue_hex_eq_some_iff.2
    ⟨List.concat_ne_nil d ds, by rw [List.map_append]; exact digitsValue_append_singleton _ _ _⟩

section

variable {n v : Nat} {l : Literal}

theorem literalField_of_lt (h : literalValue l = some v) (hv : v < 2 ^ n) :
    literalField n l = some (BitVec.ofNat n v) := by
  simp [literalField, h, hv]

/-- A literal outside its range is refused, not truncated (R35). -/
theorem literalField_of_le (h : literalValue l = some v) (hv : 2 ^ n ≤ v) : literalField n l = none := by
  simp [literalField, h, Nat.not_lt.2 hv]

end

/-! ### Lines -/

/-- A four-operand ENC has an operation exactly where each of its literals is a channel. -/
theorem lineInstr_enc_eq_some_iff {r g b a : Literal} {i : Instr} :
    lineInstr (.enc r g b a) = some i ↔
      ∃ r8 g8 b8 a8, literalField 8 r = some r8 ∧ literalField 8 g = some g8 ∧ literalField 8 b = some b8 ∧
        literalField 8 a = some a8 ∧ .enc r8 g8 b8 a8 = i := by
  constructor
  · intro h
    simp only [lineInstr] at h
    split at h
    next r8 g8 b8 a8 hr hg hb ha => exact ⟨r8, g8, b8, a8, hr, hg, hb, ha, Option.some.inj h⟩
    next => cases h
  · rintro ⟨r8, g8, b8, a8, hr, hg, hb, ha, rfl⟩
    simp only [lineInstr, hr, hg, hb, ha]

theorem lineInstr_enc_eq_none {r g b a l : Literal} (hl : l = r ∨ l = g ∨ l = b ∨ l = a)
    (h : literalField 8 l = none) : lineInstr (.enc r g b a) = none := by
  rw [Option.eq_none_iff_forall_ne_some]
  intro i hi
  obtain ⟨r8, g8, b8, a8, hr, hg, hb, ha, -⟩ := lineInstr_enc_eq_some_iff.1 hi
  rcases hl with rfl | rfl | rfl | rfl
  · cases h.symm.trans hr
  · cases h.symm.trans hg
  · cases h.symm.trans hb
  · cases h.symm.trans ha

/-- The pseudo-instruction of R35. -/
theorem lineInstr_enc3 (r g b : Literal) : lineInstr (.enc3 r g b) = lineInstr (.enc r g b (.hex [15, 15])) := by
  have halpha : literalField 8 (.hex [15, 15]) = some 0xFF#8 := by decide
  simp only [lineInstr, halpha]
  cases literalField 8 r <;> cases literalField 8 g <;> cases literalField 8 b <;> rfl

theorem assemble_of_lineInstr_some {l : AsmLine} {i : Instr} (h : lineInstr l = some i) :
    assemble l = .ok (encode i) := by
  simp only [assemble, h]

theorem assemble_of_lineInstr_none {l : AsmLine} (h : lineInstr l = none) :
    assemble l = .error .literalOutOfRange := by
  simp only [assemble, h]

theorem assemble_congr {l l' : AsmLine} (h : lineInstr l = lineInstr l') : assemble l = assemble l' := by
  simp only [assemble, h]

/-- The assembler writes only words of operations. -/
theorem exists_encode_of_assemble_ok {l : AsmLine} {w : RequestWord} (h : assemble l = .ok w) : ∃ i, w = encode i := by
  cases hi : lineInstr l with
  | none => cases (assemble_of_lineInstr_none hi).symm.trans h
  | some i => exact ⟨i, Except.ok.inj (h.symm.trans (assemble_of_lineInstr_some hi))⟩

/-- The two lines with one pixel operand, at a literal in range. -/
theorem assemble_pixel_of_lt {p : Literal} {v : Nat} (h : literalValue p = some v) (hv : v < 65536) :
    assemble (.encRaw p) = .ok (encode (.encRaw (BitVec.ofNat 16 v))) ∧
      assemble (.dec p) = .ok (encode (.dec (BitVec.ofNat 16 v))) := by
  have hfield : literalField 16 p = some (BitVec.ofNat 16 v) := literalField_of_lt h hv
  exact ⟨assemble_of_lineInstr_some (by rw [lineInstr, hfield, Option.map_some]),
    assemble_of_lineInstr_some (by rw [lineInstr, hfield, Option.map_some])⟩

/-- The two lines with one pixel operand, at a literal out of range. -/
theorem assemble_pixel_of_le {p : Literal} {v : Nat} (h : literalValue p = some v) (hv : 65536 ≤ v) :
    assemble (.encRaw p) = .error .literalOutOfRange ∧ assemble (.dec p) = .error .literalOutOfRange := by
  have hfield : literalField 16 p = none := literalField_of_le h hv
  exact ⟨assemble_of_lineInstr_none (by rw [lineInstr, hfield, Option.map_none]),
    assemble_of_lineInstr_none (by rw [lineInstr, hfield, Option.map_none])⟩

end Sys2Proof.Machine
end

section
/-! PROOFS. The statements about the encoding (spec/30_encoding.md). -/

namespace Sys2Proof.Machine

/-- Settles O3: each layout decodes to its operation, whose ports the step leaves driven. -/
theorem requestWordDrivesNamedPorts : Obligations.RequestWordDrivesNamedPorts := by
  intro s rest
  refine ⟨fun a r g b => ⟨decode_encWord r g b a, fun h => ?enc⟩,
    fun x p => ⟨decode_encRawWord x p, fun h => ?encRaw⟩, fun x p => ⟨decode_decWord x p, fun h => ?dec⟩,
    decode_reservedWord⟩
  case enc =>
    obtain ⟨t, hstep, hin⟩ := exists_step_of_request h (decode_encWord r g b a)
    refine ⟨t, hstep, ?_⟩
    rw [hin]
    exact ⟨rfl, rfl, rfl, rfl, rfl, encOperand_driveEnc s r g b a⟩
  case encRaw =>
    obtain ⟨t, hstep, hin⟩ := exists_step_of_request h (decode_encRawWord x p)
    refine ⟨t, hstep, ?_⟩
    rw [hin]
    exact ⟨rfl, rfl, encOperand_driveEncRaw s p⟩
  case dec =>
    obtain ⟨t, hstep, hin⟩ := exists_step_of_request h (decode_decWord x p)
    refine ⟨t, hstep, ?_⟩
    rw [hin]
    rfl

/-- Settles O4: each code has its decoder equation, and a decoded operation tells its code. -/
theorem operationChosenByOpAlone : Obligations.OperationChosenByOpAlone := by
  intro w
  refine ⟨⟨fun h => ⟨_, _, _, _, decode_of_op_enc h⟩, ?enc⟩, ⟨fun h => ⟨_, decode_of_op_encRaw h⟩, ?encRaw⟩,
    ⟨fun h => ⟨_, decode_of_op_dec h⟩, ?dec⟩, decode_of_op_reserved, opOf_of_decode_error⟩
  case enc =>
    rintro ⟨r, g, b, a, h⟩
    exact opOf_of_decode_ok h
  case encRaw =>
    rintro ⟨p, h⟩
    exact opOf_of_decode_ok h
  case dec =>
    rintro ⟨p, h⟩
    exact opOf_of_decode_ok h

/-- Settles O5: the ignored bits are dropped by the decoder, and the alpha by the encoder. -/
theorem ignoredBitsNeverMatter : Obligations.IgnoredBitsNeverMatter := by
  refine ⟨fun s rest x y p op hop => ?_, fun a a' r g b => ?_⟩
  · obtain ⟨i, hdecode⟩ := exists_decode_pixelWord hop p
    have hsame : decode (op ++ x ++ p) = decode (op ++ y ++ p) := (hdecode x).trans (hdecode y).symm
    exact ⟨step_congr_decode hsame s rest, requestOutcome_congr_decode hsame, _,
      requestOutcome_of_decode_ok (hdecode x)⟩
  · have hresult (a : Byte) := requestOutcome_of_decode_ok (decode_encWord r g b a)
    exact ⟨by rw [hresult a, hresult a', resultWord_enc_congr_alpha r g b a a'], _, hresult a⟩

/-- Settles O8: the outcome is read off the decoded operation, and a combinational block's ports show it. -/
theorem resultWordLayout : Obligations.ResultWordLayout :=
  ⟨fun _ _ => requestOutcome_congr_decode, fun _ _ _ _ => rfl, fun _ => rfl, fun _ => decResultWord_fields _,
    fun i _ hs => ⟨_, exec_of_combinational i hs, shownWord_driven i hs⟩⟩

/-- Settles O9: a line in range is the word of its operation, which decodes back and has its ignored bits 0; a line with
a literal out of range has no operation. -/
theorem assemblerWritesRequestWords : Obligations.AssemblerWritesRequestWords := by
  refine ⟨fun d => ?decimal, fun d => ?hex, fun _ d _ => literalValue_decimal_append d,
    fun _ d _ => literalValue_hex_append d, ?inRange, ?outOfRange, fun _ _ => assemble_pixel_of_lt,
    fun _ _ => assemble_pixel_of_le, ?written, fun r g b => assemble_congr (lineInstr_enc3 r g b)⟩
  case decimal => simp [literalValue, digitsValue]
  case hex => simp [literalValue, digitsValue]
  case inRange =>
    intro r g b a vr vg vb va hr hg hb ha hvr hvg hvb hva
    exact assemble_of_lineInstr_some (lineInstr_enc_eq_some_iff.2
      ⟨_, _, _, _, literalField_of_lt hr hvr, literalField_of_lt hg hvg, literalField_of_lt hb hvb,
        literalField_of_lt ha hva, rfl⟩)
  case outOfRange =>
    intro r g b a l v hl hv hge
    exact assemble_of_lineInstr_none (lineInstr_enc_eq_none hl (literalField_of_le hv hge))
  case written =>
    intro l w h
    obtain ⟨i, rfl⟩ := exists_encode_of_assemble_ok h
    exact ⟨i, decode_encode_ok i, encode_and_ignoredBits i⟩

/-- Settles O11: packing is concatenation, so a pixel is the concatenation of its three adjacent fields. -/
theorem pixelIsItsThreeFields : Obligations.PixelIsItsThreeFields :=
  ⟨fun p => ⟨(packFields_eq_append _ _ _).trans (append_fields p), (append_fields p).symm⟩, fields_packFields⟩

end Sys2Proof.Machine
end

section
/-! SUPPORT. Pixels as triples of fields: logic on packed pixels lane by lane, the encoder field by field (R26, R36,
R38), the decoder's outputs narrowed (R39, R42), and how many channels share their kept bits (R41). -/

namespace Sys2Proof.Machine

/-! ### The kept bits of a word: its `m` high bits above `k` dropped ones -/

section

variable {m k : Nat}

theorem extractLsb'_high_mono {c c' : BitVec (m + k)} (h : c ≤ c') : c.extractLsb' k m ≤ c'.extractLsb' k m := by
  have toNat_high (x : BitVec (m + k)) : (x.extractLsb' k m).toNat = x.toNat / 2 ^ k := by
    have hlt : x.toNat / 2 ^ k < 2 ^ m := Nat.div_lt_of_lt_mul (by simpa [Nat.pow_add, Nat.mul_comm] using x.isLt)
    rw [BitVec.extractLsb'_toNat, Nat.shiftRight_eq_div_pow, Nat.mod_eq_of_lt hlt]
  rw [BitVec.le_def, toNat_high, toNat_high]
  exact Nat.div_le_div_right (BitVec.le_def.1 h)

theorem nat_card_bitVec (k : Nat) : Nat.card (BitVec k) = 2 ^ k :=
  (Nat.card_congr BitVec.equivFin.toEquiv).trans (Nat.card_fin _)

/-- A word with given high bits is those bits followed by any low ones. -/
theorem setOf_high_eq_range (f : BitVec m) :
    { c : BitVec (m + k) | c.extractLsb' k m = f } = Set.range fun low : BitVec k => f ++ low := by
  ext c
  constructor
  · rintro rfl
    exact ⟨c.extractLsb' 0 k, BitVec.extractLsb'_append_extractLsb'⟩
  · rintro ⟨low, rfl⟩
    exact BitVec.extractLsb'_append_eq_left

theorem ncard_high_eq (f : BitVec m) : { c : BitVec (m + k) | c.extractLsb' k m = f }.ncard = 2 ^ k := by
  rw [setOf_high_eq_range, Set.ncard_range_of_injective fun _ _ => (BitVec.append_right_inj f).1, nat_card_bitVec]

/-- A word whose set bits all lie in a mask is at most the mask. -/
theorem le_of_and_eq_left {x mask : BitVec m} (h : x &&& mask = x) : x ≤ mask := by
  rw [BitVec.le_def, ← h, BitVec.toNat_and]
  exact Nat.and_le_right

theorem toNat_or_of_and_eq_zero {x y : BitVec m} (h : x &&& y = 0#m) : (x ||| y).toNat = x.toNat + y.toNat := by
  rw [← BitVec.add_eq_or_of_and_eq_zero x y h, BitVec.toNat_add_of_and_eq_zero h]

end

/-! ### Lanes of a pixel -/

theorem redLane_eq_packFields (r5 : BitVec 5) : r5.setWidth 16 <<< 11 = packFields r5 0 0 := by simp [packFields]

theorem greenLane_eq_packFields (g6 : BitVec 6) : g6.setWidth 16 <<< 5 = packFields 0 g6 0 := by simp [packFields]

theorem blueLane_eq_packFields (b5 : BitVec 5) : b5.setWidth 16 = packFields 0 0 b5 := by simp [packFields]

theorem redMask_eq_packFields : 0xF800#16 = packFields (BitVec.allOnes 5) 0 0 := rfl

theorem greenMask_eq_packFields : 0x07E0#16 = packFields 0 (BitVec.allOnes 6) 0 := rfl

theorem blueMask_eq_packFields : 0x001F#16 = packFields 0 0 (BitVec.allOnes 5) := rfl

theorem not_redMask_eq_packFields : ~~~0xF800#16 = packFields 0 (BitVec.allOnes 6) (BitVec.allOnes 5) := rfl

theorem not_greenMask_eq_packFields : ~~~0x07E0#16 = packFields (BitVec.allOnes 5) 0 (BitVec.allOnes 5) := rfl

theorem not_blueMask_eq_packFields : ~~~0x001F#16 = packFields (BitVec.allOnes 5) (BitVec.allOnes 6) 0 := rfl

section

variable (r5 r5' : BitVec 5) (g6 g6' : BitVec 6) (b5 b5' : BitVec 5)

theorem packFields_and : packFields r5 g6 b5 &&& packFields r5' g6' b5' =
    packFields (r5 &&& r5') (g6 &&& g6') (b5 &&& b5') := by
  rw [packFields_eq_append, packFields_eq_append, packFields_eq_append]
  exact BitVec.and_append.trans (congrArg (· ++ (b5 &&& b5')) BitVec.and_append)

theorem packFields_or : packFields r5 g6 b5 ||| packFields r5' g6' b5' =
    packFields (r5 ||| r5') (g6 ||| g6') (b5 ||| b5') := by
  rw [packFields_eq_append, packFields_eq_append, packFields_eq_append]
  exact BitVec.or_append.trans (congrArg (· ++ (b5 ||| b5')) BitVec.or_append)

theorem packFields_zero : packFields 0#5 0#6 0#5 = 0#16 := rfl

theorem red_and_green_eq_zero : packFields r5 0 0 &&& packFields 0 g6 0 = 0#16 := by
  simp [packFields_and, packFields_zero]

theorem redGreen_and_blue_eq_zero : packFields r5 g6 0 &&& packFields 0 0 b5 = 0#16 := by
  simp [packFields_and, packFields_zero]

/-- The lanes do not overlap, so the OR of the three is their sum (R38). -/
theorem toNat_packFields : (packFields r5 g6 b5).toNat =
    (packFields r5 0 0).toNat + (packFields 0 g6 0).toNat + (packFields 0 0 b5).toNat := by
  have hblue : packFields r5 g6 b5 = packFields r5 g6 0 ||| packFields 0 0 b5 := by simp [packFields_or]
  have hgreen : packFields r5 g6 0 = packFields r5 0 0 ||| packFields 0 g6 0 := by simp [packFields_or]
  rw [hblue, toNat_or_of_and_eq_zero (redGreen_and_blue_eq_zero r5 g6 b5), hgreen,
    toNat_or_of_and_eq_zero (red_and_green_eq_zero r5 g6)]

end

theorem pixel_eq_iff_fields {p q : Pixel} :
    p = q ↔ redField p = redField q ∧ greenField p = greenField q ∧ blueField p = blueField q := by
  constructor
  · rintro rfl
    exact ⟨rfl, rfl, rfl⟩
  · rintro ⟨hr, hg, hb⟩
    rw [← append_fields p, ← append_fields q, hr, hg, hb]

/-! ### The encoder's result, field by field (R36, R41) -/

section

variable (r g b a : Byte)

theorem encodePixel_generic_eq_packFields : encodePixel (.generic r g b a) =
    packFields (r.extractLsb' 3 5) (g.extractLsb' 2 6) (b.extractLsb' 3 5) := by
  rw [encodePixel, top5_eq_extract, top6_eq_extract, top5_eq_extract]

theorem fields_encodePixel_generic : redField (encodePixel (.generic r g b a)) = r.extractLsb' 3 5 ∧
    greenField (encodePixel (.generic r g b a)) = g.extractLsb' 2 6 ∧
    blueField (encodePixel (.generic r g b a)) = b.extractLsb' 3 5 := by
  rw [encodePixel_generic_eq_packFields]
  exact fields_packFields _ _ _

/-- Each field is non-decreasing in its own channel, being its high bits (R43). -/
theorem redField_encodePixel_mono {r r' : Byte} (h : r ≤ r') :
    redField (encodePixel (.generic r g b a)) ≤ redField (encodePixel (.generic r' g b a)) := by
  obtain ⟨hfield, -, -⟩ := fields_encodePixel_generic r g b a
  obtain ⟨hfield', -, -⟩ := fields_encodePixel_generic r' g b a
  rw [hfield, hfield']
  exact extractLsb'_high_mono (m := 5) (k := 3) h

theorem greenField_encodePixel_mono {g g' : Byte} (h : g ≤ g') :
    greenField (encodePixel (.generic r g b a)) ≤ greenField (encodePixel (.generic r g' b a)) := by
  obtain ⟨-, hfield, -⟩ := fields_encodePixel_generic r g b a
  obtain ⟨-, hfield', -⟩ := fields_encodePixel_generic r g' b a
  rw [hfield, hfield']
  exact extractLsb'_high_mono (m := 6) (k := 2) h

theorem blueField_encodePixel_mono {b b' : Byte} (h : b ≤ b') :
    blueField (encodePixel (.generic r g b a)) ≤ blueField (encodePixel (.generic r g b' a)) := by
  obtain ⟨-, -, hfield⟩ := fields_encodePixel_generic r g b a
  obtain ⟨-, -, hfield'⟩ := fields_encodePixel_generic r g b' a
  rw [hfield, hfield']
  exact extractLsb'_high_mono (m := 5) (k := 3) h

/-- A mask that drops a lane drops all that the channel of that lane decides (R43). -/
theorem encodePixel_and_not_redMask : encodePixel (.generic r g b a) &&& ~~~0xF800#16 =
    packFields 0 (g.extractLsb' 2 6) (b.extractLsb' 3 5) := by
  rw [encodePixel_generic_eq_packFields, not_redMask_eq_packFields, packFields_and]
  simp only [BitVec.and_allOnes, BitVec.ofNat_eq_ofNat, BitVec.and_zero]

theorem encodePixel_and_not_greenMask : encodePixel (.generic r g b a) &&& ~~~0x07E0#16 =
    packFields (r.extractLsb' 3 5) 0 (b.extractLsb' 3 5) := by
  rw [encodePixel_generic_eq_packFields, not_greenMask_eq_packFields, packFields_and]
  simp only [BitVec.and_allOnes, BitVec.ofNat_eq_ofNat, BitVec.and_zero]

theorem encodePixel_and_not_blueMask : encodePixel (.generic r g b a) &&& ~~~0x001F#16 =
    packFields (r.extractLsb' 3 5) (g.extractLsb' 2 6) 0 := by
  rw [encodePixel_generic_eq_packFields, not_blueMask_eq_packFields, packFields_and]
  simp only [BitVec.and_allOnes, BitVec.ofNat_eq_ofNat, BitVec.and_zero]

theorem encodePixel_generic_eq_iff (p : Pixel) : encodePixel (.generic r g b a) = p ↔
    r.extractLsb' 3 5 = redField p ∧ g.extractLsb' 2 6 = greenField p ∧ b.extractLsb' 3 5 = blueField p := by
  obtain ⟨hr, hg, hb⟩ := fields_encodePixel_generic r g b a
  rw [pixel_eq_iff_fields, hr, hg, hb]

end

/-! ### Narrowed decoder outputs (R39, R42) -/

theorem narrow_scale16 (x : Byte) : narrow (scale16 x) = x := by
  rw [narrow, scale16_eq_append]
  exact BitVec.extractLsb'_append_eq_left

/-- Replication puts the field itself on top (R47). -/
theorem rep5_high (f : BitVec 5) : (rep5 f).extractLsb' 3 5 = f := by
  apply BitVec.eq_of_getLsbD_eq
  intro i hi
  simp only [rep5, BitVec.getLsbD_extractLsb', BitVec.getLsbD_or, BitVec.getLsbD_shiftLeft, BitVec.getLsbD_ushiftRight,
    BitVec.getLsbD_setWidth]
  interval_cases i <;> simp

theorem rep6_high (f : BitVec 6) : (rep6 f).extractLsb' 2 6 = f := by
  apply BitVec.eq_of_getLsbD_eq
  intro i hi
  simp only [rep6, BitVec.getLsbD_extractLsb', BitVec.getLsbD_or, BitVec.getLsbD_shiftLeft, BitVec.getLsbD_ushiftRight,
    BitVec.getLsbD_setWidth]
  interval_cases i <;> simp

theorem encodePixel_narrow_decodePixel (p : Pixel) (a : Byte) :
    encodePixel (.generic (narrow (decodePixel p).r) (narrow (decodePixel p).g) (narrow (decodePixel p).b) a) = p := by
  simp only [encodePixel_generic_eq_iff, decodePixel, narrow_scale16, rep5_high, rep6_high, and_self]

/-! ### How many colours encode to a pixel (R41) -/

/-- The triples that encode to a pixel are chosen channel by channel, each with its kept bits given. -/
theorem setOf_encodePixel_eq_prod (p : Pixel) (a : Byte) :
    { c : Byte × Byte × Byte | encodePixel (.generic c.1 c.2.1 c.2.2 a) = p } =
      { r : Byte | r.extractLsb' 3 5 = redField p } ×ˢ
        { g : Byte | g.extractLsb' 2 6 = greenField p } ×ˢ { b : Byte | b.extractLsb' 3 5 = blueField p } :=
  Set.ext fun ⟨r, g, b⟩ => encodePixel_generic_eq_iff r g b a p

theorem setOf_encodePixel_alpha_eq_prod (p : Pixel) :
    { c : Byte × Byte × Byte × Byte | encodePixel (.generic c.1 c.2.1 c.2.2.1 c.2.2.2) = p } =
      { r : Byte | r.extractLsb' 3 5 = redField p } ×ˢ { g : Byte | g.extractLsb' 2 6 = greenField p } ×ˢ
        { b : Byte | b.extractLsb' 3 5 = blueField p } ×ˢ Set.univ := by
  ext ⟨r, g, b, a⟩
  simp only [Set.mem_ofPred_eq, Set.mem_prod, Set.mem_univ, and_true]
  exact encodePixel_generic_eq_iff r g b a p

theorem ncard_top5 (f : BitVec 5) : { c : Byte | c.extractLsb' 3 5 = f }.ncard = 8 :=
  ncard_high_eq (k := 3) f

theorem ncard_top6 (f : BitVec 6) : { c : Byte | c.extractLsb' 2 6 = f }.ncard = 4 :=
  ncard_high_eq (k := 2) f

/-! ### An operation of the encoder, executed (R15, R73) -/

/-- An operation that presents the operand `e` to the encoder: a next state, no refusal marked, the result shown at once
by a combinational block, the operand the newest slot of a pipelined one. -/
theorem exists_exec_of_sampledEnc {s : State} {i : Instr} {e : EncIn}
    (h : sampledEnc (driven i s).inputs = some e) :
    ∃ t, exec i s = .next t ∧ t.refusalMark = s.refusalMark ∧ (s.latency = 0 → t.encPix = encodePixel e) ∧
      (0 < s.latency → t.inputs.rst = false → t.encPipe = pushSlot s.latency s.encPipe (some e)) := by
  refine ⟨_, exec_eq_driven i s, by simp, fun hs => ?combinational, fun hs _ => ?pipelined⟩
  case combinational =>
    rw [State.encPix_of_combinational (by simpa using hs), State.clockEdge_inputs, (sampledEnc_eq_some_iff.1 h).2]
  case pipelined =>
    rw [State.clockEdge_of_accept (by simpa using hs) (driven_rst i s), State.acceptEdge_encPipe, h, driven_latency,
      driven_encPipe]

end Sys2Proof.Machine
end

section
/-! PROOFS. The statements about the encoder (spec/40_encoder.md). -/

namespace Sys2Proof.Machine

/-- Settles O12: the result is the three truncated channels, which the executed operation shows or queues. -/
theorem encPacksByTruncation : Obligations.EncPacksByTruncation := by
  intro s r g b a
  have hresult := (encodePixel_generic_eq_packFields r g b a).trans (packFields_eq_append _ _ _)
  refine ⟨decode_encWord r g b a, hresult, rfl, rfl, rfl, ?_⟩
  rw [← hresult]
  exact exists_exec_of_sampledEnc (i := .enc r g b a) rfl

/-- Settles O13: the ignored bits are dropped by the decoder, and the encoder returns the packed operand. -/
theorem encRawReturnsItsOperand : Obligations.EncRawReturnsItsOperand := by
  intro s p
  refine ⟨fun x => decode_encRawWord x p, rfl, fun x hsel => ?raw, fun x hsel => ?generic,
    exists_exec_of_sampledEnc (i := .encRaw p) rfl⟩
  case raw => rw [encOperand, hsel]
  case generic => rw [encOperand, hsel]

/-- Settles O14: the shifted fields are the lanes of a pixel, each within its own mask, so no two overlap. -/
theorem encoderFieldsAreDisjoint : Obligations.EncoderFieldsAreDisjoint := by
  intro r g b a hi mid lo
  have hhi : hi = packFields (top5 r) 0 0 := redLane_eq_packFields _
  have hmid : mid = packFields 0 (top6 g) 0 := greenLane_eq_packFields _
  have hlo : lo = packFields 0 0 (top5 b) := blueLane_eq_packFields _
  have hhiMask : hi &&& 0xF800#16 = hi := by
    simp only [hhi, redMask_eq_packFields, packFields_and, BitVec.and_allOnes, BitVec.and_self]
  have hmidMask : mid &&& 0x07E0#16 = mid := by
    simp only [hmid, greenMask_eq_packFields, packFields_and, BitVec.and_allOnes, BitVec.and_self]
  have hloMask : lo &&& 0x001F#16 = lo := by
    simp only [hlo, blueMask_eq_packFields, packFields_and, BitVec.and_allOnes, BitVec.and_self]
  refine ⟨le_of_and_eq_left hhiMask, le_of_and_eq_left hmidMask, le_of_and_eq_left hloMask, hhiMask, hmidMask,
    hloMask, ?redGreen, ?redBlue, ?greenBlue, ?sum, fields_encodePixel_generic r g b a⟩
  case redGreen => rw [hhi, hmid, red_and_green_eq_zero]
  case redBlue => rw [hhi, hlo, redGreen_and_blue_eq_zero]
  case greenBlue => rw [hmid, hlo, redGreen_and_blue_eq_zero]
  case sum =>
    rw [hhi, hmid, hlo]
    exact toNat_packFields _ _ _

/-- Settles O15: a colour encodes to a pixel by its kept bits alone; the dropped bits and the alpha are free. -/
theorem encoderPreimages : Obligations.EncoderPreimages := by
  refine ⟨fun _ _ _ _ _ => rfl, fun p r g b a => encodePixel_generic_eq_iff r g b a p, fun p a => ?triples,
    fun p => ?quadruples, fun p => ⟨_, _, _, 0, encodePixel_narrow_decodePixel p 0⟩⟩
  case triples => rw [setOf_encodePixel_eq_prod, Set.ncard_prod, Set.ncard_prod, ncard_top5, ncard_top6, ncard_top5]
  case quadruples =>
    rw [setOf_encodePixel_alpha_eq_prod, Set.ncard_prod, Set.ncard_prod, Set.ncard_prod, ncard_top5, ncard_top6,
      ncard_top5, Set.ncard_univ, nat_card_bitVec]
    rfl

/-- Settles O16: both paths return the pixel, and a combinational block shows what they return. -/
theorem shortCircuitAgreesWithGenericPath : Obligations.ShortCircuitAgreesWithGenericPath := by
  have hpaths (p : Pixel) (a : Byte) := (encodePixel_narrow_decodePixel p a).symm
  refine ⟨hpaths, fun s s' p a hs hs' => ?_⟩
  obtain ⟨t, hexec, -, hshow, -⟩ := exists_exec_of_sampledEnc (s := s) (i := .encRaw p) rfl
  obtain ⟨t', hexec', -, hshow', -⟩ := exists_exec_of_sampledEnc (s := s') (i := .enc _ _ _ a) rfl
  exact ⟨t, t', hexec, hexec', (hshow hs).trans ((hpaths p a).trans (hshow' hs').symm)⟩

/-- Settles O17: a field is the high bits of its own channel, and a mask that drops its lane leaves the other two. -/
theorem encoderLanesAreMonotone : Obligations.EncoderLanesAreMonotone := by
  intro r r' g g' b b' a
  refine ⟨redField_encodePixel_mono g b a, greenField_encodePixel_mono r b a, blueField_encodePixel_mono r g a,
    ?red, ?green, ?blue⟩
  case red => rw [encodePixel_and_not_redMask, encodePixel_and_not_redMask]
  case green => rw [encodePixel_and_not_greenMask, encodePixel_and_not_greenMask]
  case blue => rw [encodePixel_and_not_blueMask, encodePixel_and_not_blueMask]

end Sys2Proof.Machine
end

section
/-! SUPPORT. Bit replication for any widths and any right-shift count (R47, D3, D4): when it keeps the field on top,
when it fills the vacated bits, why its OR is a sum (R48). The decoder field by field, and its operation executed (R46). -/

namespace Sys2Proof.Machine

/-! ### Bits of a word -/

theorem extractLsb'_extractLsb'_of_fits {n : Nat} (x : BitVec n) {start len start' len' : Nat}
    (h : start' + len' ≤ len) :
    (x.extractLsb' start len).extractLsb' start' len' = x.extractLsb' (start + start') len' := by
  apply BitVec.eq_of_getLsbD_eq
  intro i hi
  have hlen : start' + i < len := by omega
  simp [hi, hlen, Nat.add_assoc]

/-- Masking off the low bits leaves the high bits over zeros. -/
theorem and_highMask {m k : Nat} (c : BitVec (m + k)) :
    c &&& (BitVec.allOnes m ++ 0#k) = c.extractLsb' k m ++ 0#k := by
  conv_lhs => rw [← BitVec.extractLsb'_append_extractLsb' (x := c)]
  rw [BitVec.and_append, BitVec.and_allOnes, BitVec.and_zero]

/-! ### A field above its own shifted copy -/

/-- The field `f` shifted up over `k` vacated bits, ORed with a copy of that shifted right by `s`. -/
def spread (k s : Nat) {m : Nat} (f : BitVec m) : BitVec (m + k) :=
  let v := f.setWidth (m + k) <<< k
  v ||| (v >>> s)

theorem rep5_eq_spread (f : BitVec 5) : rep5 f = spread 3 5 f := rfl

theorem rep6_eq_spread (f : BitVec 6) : rep6 f = spread 2 6 f := rfl

section

variable {m k : Nat} (f : BitVec m)

theorem shiftedUp_eq_append : f.setWidth (m + k) <<< k = f ++ 0#k := by
  apply BitVec.eq_of_getLsbD_eq
  intro i hi
  have hfield : i - k < m + k := by omega
  rw [BitVec.getLsbD_shiftLeft, BitVec.getLsbD_setWidth, BitVec.getLsbD_append]
  by_cases hlow : i < k <;> simp [hlow, hi, hfield]

theorem shiftedUp_ushiftRight_eq_append (h : k ≤ m) : (f ++ 0#k) >>> m = 0#m ++ f.extractLsb' (m - k) k := by
  apply BitVec.eq_of_getLsbD_eq
  intro i hi
  have habove : ¬ m + i < k := by omega
  have hbit : m + i - k = m - k + i := by omega
  rw [BitVec.getLsbD_ushiftRight, BitVec.getLsbD_append, BitVec.getLsbD_append, if_neg habove, hbit]
  by_cases hlow : i < k
  · simp [hlow]
  · rw [if_neg hlow, BitVec.getLsbD_of_ge f _ (by omega), BitVec.getLsbD_zero]

/-- A field on top and a copy below it have no bit in common, so their OR is their sum (R48). -/
theorem high_and_low_eq_zero (t : BitVec k) : (f ++ 0#k) &&& (0#m ++ t) = 0#(m + k) := by
  rw [BitVec.and_append, BitVec.and_zero, BitVec.zero_and, BitVec.zero_append_zero]

/-- Field and copy stay within complementary masks, and their OR is their sum (R48). -/
theorem spread_width_loses_nothing (h : k ≤ m) :
    let v := f.setWidth (m + k) <<< k
    let highMask := BitVec.allOnes m ++ 0#k
    let lowMask := 0#m ++ BitVec.allOnes k
    v ≤ highMask ∧ v &&& lowMask = 0#(m + k) ∧ v >>> m ≤ lowMask ∧ (v >>> m) &&& highMask = 0#(m + k) ∧
      (spread k m f).toNat = v.toNat + (v >>> m).toNat := by
  intro v highMask lowMask
  have hv : v = f ++ 0#k := shiftedUp_eq_append f
  have hcopy : v >>> m = 0#m ++ f.extractLsb' (m - k) k := by rw [hv, shiftedUp_ushiftRight_eq_append f h]
  have hdisjoint : v &&& (v >>> m) = 0#(m + k) := by rw [hcopy, hv, high_and_low_eq_zero]
  refine ⟨le_of_and_eq_left ?high, ?highLow, le_of_and_eq_left ?low, ?lowHigh, toNat_or_of_and_eq_zero hdisjoint⟩
  case high => rw [hv, BitVec.and_append, BitVec.and_allOnes, BitVec.and_zero]
  case highLow => rw [hv, high_and_low_eq_zero]
  case low => rw [hcopy, BitVec.and_append, BitVec.and_allOnes, BitVec.and_zero]
  case lowHigh => rw [hcopy, BitVec.and_comm, high_and_low_eq_zero]

/-- Shifting right by the field's own width fills the vacated bits with the field's top bits (R47). -/
theorem spread_width_eq_append (h : k ≤ m) : spread k m f = f ++ f.extractLsb' (m - k) k := by
  rw [spread, shiftedUp_eq_append, shiftedUp_ushiftRight_eq_append f h, BitVec.or_append, BitVec.or_zero,
    BitVec.zero_or]

/-- On top stands the field, disturbed by its own copy. -/
theorem spread_high (s : Nat) : (spread k s f).extractLsb' k m = f ||| (f >>> s) := by
  rw [spread, shiftedUp_eq_append]
  apply BitVec.eq_of_getLsbD_eq
  intro i hi
  have hcopy : s + (k + i) - k = s + i := by omega
  have habove : ¬ s + (k + i) < k := by omega
  simp [BitVec.getLsbD_append, hi, hcopy, habove]

end

/-- The round trip is kept by the counts that leave the field alone: no shift, or one that moves the copy out of it. -/
theorem spread_high_eq_iff {m : Nat} (k s : Nat) :
    (∀ f : BitVec m, (spread k s f).extractLsb' k m = f) ↔ s = 0 ∨ m ≤ s := by
  simp only [spread_high]
  constructor
  · intro h
    by_contra! hs
    have hbit := congrArg (·.getLsbD (m - 1 - s)) (h (BitVec.intMin m))
    have htop : s + (m - 1 - s) + 1 = m := by omega
    have hbelow : m - 1 - s + 1 ≠ m := by omega
    simp [BitVec.getLsbD_intMin, htop, hbelow] at hbit
  · rintro (rfl | hs) f
    · simp
    · rw [BitVec.ushiftRight_eq_zero hs, BitVec.or_zero]

/-- The vacated bits are filled with the field's top bits by one count alone, the field's width: the field that has just
its top bit set tells the counts apart. -/
theorem spread_eq_append_iff {m k : Nat} (s : Nat) (hk : 0 < k) (h : k ≤ m) :
    (∀ f : BitVec m, spread k s f = f ++ f.extractLsb' (m - k) k) ↔ s = m := by
  constructor
  · intro hfill
    have hbit := congrArg (·.getLsbD (k - 1)) (hfill (BitVec.intMin m))
    have htop : m - k + (k - 1) + 1 = m := by omega
    rw [spread, shiftedUp_eq_append] at hbit
    obtain ⟨hcopy, hcopyTop⟩ : k ≤ s + (k - 1) ∧ s + (k - 1) - k + 1 = m := by
      simpa [BitVec.getLsbD_append, BitVec.getLsbD_intMin, hk, htop] using hbit
    omega
  · rintro rfl f
    exact spread_width_eq_append f h

theorem rep5_eq_append (f : BitVec 5) : rep5 f = f ++ f.extractLsb' 2 3 :=
  (rep5_eq_spread f).trans (spread_width_eq_append f (by decide))

theorem rep6_eq_append (f : BitVec 6) : rep6 f = f ++ f.extractLsb' 4 2 :=
  (rep6_eq_spread f).trans (spread_width_eq_append f (by decide))

/-! ### 16-bit scaling (R46) -/

theorem scale16_highBits (x : Byte) (start len : Nat) :
    (scale16 x).extractLsb' (8 + start) len = x.extractLsb' start len := by
  rw [scale16_eq_append]
  exact extractLsb'_add_append x x start len

theorem scale16_bytes (x : Byte) : (scale16 x).extractLsb' 8 8 = x ∧ (scale16 x).extractLsb' 0 8 = x := by
  rw [scale16_eq_append]
  exact ⟨BitVec.extractLsb'_append_eq_left, BitVec.extractLsb'_append_eq_right⟩

theorem toNat_scale16 (x : Byte) : (scale16 x).toNat = x.toNat * 0x101 := by
  rw [scale16_eq_append, BitVec.toNat_append, ← Nat.shiftLeft_add_eq_or_of_lt x.isLt, Nat.shiftLeft_eq]
  omega

/-! ### The decoder's result (R46, R51, R53) -/

/-- The decoder's result, every bit named by its place in the pixel. -/
theorem decodePixel_eq_append (p : Pixel) :
    let r8 : Byte := p.extractLsb' 11 5 ++ p.extractLsb' 13 3
    let g8 : Byte := p.extractLsb' 5 6 ++ p.extractLsb' 9 2
    let b8 : Byte := p.extractLsb' 0 5 ++ p.extractLsb' 2 3
    decodePixel p = { r := r8 ++ r8, g := g8 ++ g8, b := b8 ++ b8, a := 0xFFFF#16 } := by
  have hr : (redField p).extractLsb' 2 3 = p.extractLsb' 13 3 := extractLsb'_extractLsb'_of_fits p (by decide)
  have hg : (greenField p).extractLsb' 4 2 = p.extractLsb' 9 2 := extractLsb'_extractLsb'_of_fits p (by decide)
  have hb : (blueField p).extractLsb' 2 3 = p.extractLsb' 2 3 := extractLsb'_extractLsb'_of_fits p (by decide)
  rw [decodePixel, scale16_eq_append, scale16_eq_append, scale16_eq_append, rep5_eq_append, rep6_eq_append,
    rep5_eq_append, hr, hg, hb]
  rfl

theorem topBits_decodePixel (p : Pixel) : (decodePixel p).r.extractLsb' 11 5 = redField p ∧
    (decodePixel p).g.extractLsb' 10 6 = greenField p ∧ (decodePixel p).b.extractLsb' 11 5 = blueField p :=
  ⟨(scale16_highBits _ 3 5).trans (rep5_high _), (scale16_highBits _ 2 6).trans (rep6_high _),
    (scale16_highBits _ 3 5).trans (rep5_high _)⟩

/-- The channels tell the pixel: its fields are their top bits. -/
theorem channels_decodePixel_injective :
    Function.Injective fun p : Pixel => ((decodePixel p).r, (decodePixel p).g, (decodePixel p).b) := by
  intro p q h
  obtain ⟨hr, hg, hb⟩ : (decodePixel p).r = (decodePixel q).r ∧ (decodePixel p).g = (decodePixel q).g ∧
    (decodePixel p).b = (decodePixel q).b := by simpa using h
  obtain ⟨hpr, hpg, hpb⟩ := topBits_decodePixel p
  obtain ⟨hqr, hqg, hqb⟩ := topBits_decodePixel q
  rw [pixel_eq_iff_fields, ← hpr, ← hpg, ← hpb, hr, hg, hb]
  exact ⟨hqr, hqg, hqb⟩

theorem decodePixel_injective : Function.Injective decodePixel := fun _ _ h =>
  channels_decodePixel_injective (congrArg (fun d : DecOut => (d.r, d.g, d.b)) h)

/-- Two channels that agree on the kept bits agree under the mask of these (R53). -/
theorem and_mask5_congr {c c' : Byte} (h : c.extractLsb' 3 5 = c'.extractLsb' 3 5) : c &&& 0xF8#8 = c' &&& 0xF8#8 := by
  have hmask (x : Byte) : x &&& 0xF8#8 = x.extractLsb' 3 5 ++ 0#3 := and_highMask (m := 5) (k := 3) x
  rw [hmask, hmask, h]

theorem and_mask6_congr {c c' : Byte} (h : c.extractLsb' 2 6 = c'.extractLsb' 2 6) : c &&& 0xFC#8 = c' &&& 0xFC#8 := by
  have hmask (x : Byte) : x &&& 0xFC#8 = x.extractLsb' 2 6 ++ 0#2 := and_highMask (m := 6) (k := 2) x
  rw [hmask, hmask, h]

/-- Encoding keeps the top bits of each channel, and so does decoding again. -/
theorem keptBits_narrow_decodePixel_encodePixel (r g b a : Byte) :
    let d := decodePixel (encodePixel (.generic r g b a))
    (narrow d.r).extractLsb' 3 5 = r.extractLsb' 3 5 ∧ (narrow d.g).extractLsb' 2 6 = g.extractLsb' 2 6 ∧
      (narrow d.b).extractLsb' 3 5 = b.extractLsb' 3 5 := by
  intro d
  obtain ⟨hr, hg, hb⟩ := fields_encodePixel_generic r g b a
  rw [← hr, ← hg, ← hb]
  exact (encodePixel_generic_eq_iff _ _ _ a _).1 (encodePixel_narrow_decodePixel _ a)

/-! ### The decoder's ports (R49, R72, R73) -/

theorem State.decOut_of_ready {s : State} (h : s.decResultReady) : ∃ p, s.decOut = decodePixel p := by
  rcases Nat.eq_zero_or_pos s.latency with hs | hs
  · exact ⟨_, State.decOut_of_combinational hs⟩
  · obtain ⟨hset, p, hp⟩ := (State.decResultReady_iff hs).1 h
    exact ⟨p, State.decOut_of_shown hs hset hp⟩

/-- DEC executed: a next state, no refusal marked, the result shown at once by a combinational block, the pixel the
newest slot of a pipelined one. -/
theorem exists_exec_dec (s : State) (p : Pixel) :
    ∃ t, exec (.dec p) s = .next t ∧ t.refusalMark = s.refusalMark ∧ (s.latency = 0 → t.decOut = decodePixel p) ∧
      (0 < s.latency → t.inputs.rst = false → t.decPipe = pushSlot s.latency s.decPipe (some p)) := by
  refine ⟨_, exec_eq_driven (.dec p) s, by simp, fun hs => ?combinational, fun hs _ => ?pipelined⟩
  case combinational =>
    rw [State.decOut_of_combinational (by simpa using hs), State.clockEdge_inputs]
    rfl
  case pipelined =>
    rw [State.clockEdge_of_accept (by simpa using hs) (driven_rst (.dec p) s)]
    rfl

end Sys2Proof.Machine
end

section
/-! PROOFS. The statements about the decoder (spec/41_decoder.md). -/

namespace Sys2Proof.Machine

/-- Settles O18: each channel is its replicated field twice, which the executed operation shows or queues. -/
theorem decUnpacksByReplication : Obligations.DecUnpacksByReplication := by
  intro s p r8 g8 b8
  have hresult : decodePixel p = { r := r8 ++ r8, g := g8 ++ g8, b := b8 ++ b8, a := 0xFFFF#16 } :=
    decodePixel_eq_append p
  refine ⟨fun x => decode_decWord x p, hresult, rfl, rfl, rfl, ?_⟩
  rw [← hresult]
  exact exists_exec_dec s p

/-- Settles O22: the fields are the top bits of the channels, so distinct pixels have distinct channels. -/
theorem decoderIsInjective : Obligations.DecoderIsInjective := by
  refine ⟨topBits_decodePixel, channels_decodePixel_injective, ?count⟩
  case count =>
    rw [Set.ncard_range_of_injective decodePixel_injective, nat_card_bitVec]
    rfl

/-- Settles O23: the high byte is the narrowed channel, and the low byte is the same byte. -/
theorem roundTripIsStable : Obligations.RoundTripIsStable := by
  refine ⟨rep5_high, rep6_high, encodePixel_narrow_decodePixel, fun p a => ?low⟩
  case low =>
    have hlow (x : Byte) : (scale16 x).extractLsb' 0 8 = narrow (scale16 x) :=
      (scale16_bytes x).2.trans (narrow_scale16 x).symm
    have hstable := encodePixel_narrow_decodePixel p a
    simp only [decodePixel, ← hlow] at hstable
    exact hstable

/-- Settles O24: the masks keep just the bits that the encoding keeps; replication rewrites those below, as it does in
the example's green. -/
theorem precisionLossIsBounded : Obligations.PrecisionLossIsBounded := by
  refine ⟨fun r g b a => ?masked, fun a => ?inexact⟩
  case masked =>
    obtain ⟨hr, hg, hb⟩ := keptBits_narrow_decodePixel_encodePixel r g b a
    exact ⟨and_mask5_congr hr, and_mask6_congr hg, and_mask5_congr hb⟩
  case inexact =>
    have hpixel : encodePixel (.generic 0x5A 0xDA 0xFF a) = 0x5EDF#16 := rfl
    rw [hpixel]
    rfl

/-- Settles O25: encoding the decoded channels of a pixel returns that pixel. -/
theorem requantisingIsIdempotent : Obligations.RequantisingIsIdempotent := by
  intro r g b a a' d
  have hstable := encodePixel_narrow_decodePixel (encodePixel (.generic r g b a)) a'
  exact ⟨hstable, congrArg decodePixel hstable⟩

/-- Settles O19: a count keeps the round trip where the copy leaves the field alone, and fills the vacated bits where it
is the field's width. -/
theorem replicationFillsVacatedBits : Obligations.ReplicationFillsVacatedBits := by
  simp only [Obligations.ReplicationFillsVacatedBits, top5_eq_extract, top6_eq_extract]
  refine ⟨fun f => ⟨rep5_eq_append f, rfl⟩, fun f => ⟨rep6_eq_append f, rfl⟩, fun s => ?keep5, fun s => ?keep6,
    fun s => spread_eq_append_iff (m := 5) (k := 3) s (by decide) (by decide),
    fun s => spread_eq_append_iff (m := 6) (k := 2) s (by decide) (by decide)⟩
  case keep5 => exact (spread_high_eq_iff (m := 5) 3 s).trans (by omega)
  case keep6 => exact (spread_high_eq_iff (m := 6) 2 s).trans (by omega)

/-- Settles O20: a field and its copy lie in complementary masks, and a doubled byte is the byte times 0x101. -/
theorem decoderArithmeticLosesNothing : Obligations.DecoderArithmeticLosesNothing :=
  ⟨fun f => spread_width_loses_nothing (m := 5) (k := 3) f (by decide),
    fun f => spread_width_loses_nothing (m := 6) (k := 2) f (by decide),
    fun x => ⟨toNat_scale16 x, by omega⟩⟩

/-- Settles O21: outputs that carry a result are some pixel's decoding, whose alpha is opaque. -/
theorem alphaIsAlwaysOpaque : Obligations.AlphaIsAlwaysOpaque := by
  refine ⟨fun _ => rfl, fun s hready => ?port⟩
  case port =>
    obtain ⟨p, hp⟩ := State.decOut_of_ready hready
    rw [hp, decodePixel]

/-- Settles O26: the bytes by the scaling; the tables of R55 by enumeration, as the spec has them. -/
theorem replicationTables : Obligations.ReplicationTables := by
  refine ⟨fun p => ?bytes, by decide, by decide, by decide, by decide⟩
  case bytes =>
    obtain ⟨hrHigh, hrLow⟩ := scale16_bytes (rep5 (redField p))
    obtain ⟨hgHigh, hgLow⟩ := scale16_bytes (rep6 (greenField p))
    obtain ⟨hbHigh, hbLow⟩ := scale16_bytes (rep5 (blueField p))
    exact ⟨hrHigh, hrLow, hgHigh, hgLow, hbHigh, hbLow⟩

end Sys2Proof.Machine
end

section
/-! SUPPORT. What becomes of a request word (R57): its outcome by its operation code, and the refusal mark after a step
and after a run. -/

namespace Sys2Proof.Machine

/-! ### The outcome of a request word -/

/-- No operation has the reserved code (R30, R31). -/
theorem opCode_ne_reserved (i : Instr) : Laws.OpCode.code i ≠ 0b11#2 := by
  cases i <;> simp [Laws.OpCode.code]

section

variable {w : RequestWord}

theorem opOf_ne_reserved_of_decode_ok {i : Instr} (h : decode w = .ok i) : opOf w ≠ 0b11#2 := by
  rw [opOf_of_decode_ok h]
  exact opCode_ne_reserved i

theorem exists_decode_ok_of_op_ne_reserved (h : opOf w ≠ 0b11#2) : ∃ i, decode w = .ok i := by
  cases hdecode : decode w with
  | ok i => exact ⟨i, rfl⟩
  | error e => exact absurd (opOf_of_decode_error hdecode) h

theorem requestOutcome_of_decode_error {e : DecodeError} (h : decode w = .error e) : requestOutcome w = .refused := by
  simp only [requestOutcome, h]

/-- A request word is refused for the reserved code and for nothing else (R31, R57). -/
theorem requestOutcome_eq_refused_iff : requestOutcome w = .refused ↔ opOf w = 0b11#2 := by
  cases h : decode w with
  | ok i => simp [requestOutcome_of_decode_ok h, opOf_ne_reserved_of_decode_ok h]
  | error e => simp [requestOutcome_of_decode_error h, opOf_of_decode_error h]

end

/-! ### The refusal mark -/

/-- A stimulus sets the mark exactly where it is a refused word, and nothing clears it. -/
@[simp] theorem presented_refusalMark (x : Stimulus) (s : State) :
    (presented x s).refusalMark = (s.refusalMark || x.isRefused) := by
  cases x with
  | idle => simp [presented, Stimulus.isRefused]
  | ports v => simp [presented, Stimulus.isRefused]
  | request w =>
    cases h : decode w with
    | ok i => simp [presented, Stimulus.isRefused, h, opOf_ne_reserved_of_decode_ok h]
    | error e => simp [presented, Stimulus.isRefused, h, opOf_of_decode_error h]

theorem step_refusalMark {s t : State} (h : step s = .next t) :
    t.refusalMark = (s.refusalMark || (nextStimulus s).isRefused) := by
  simp [eq_of_step_next h]

/-- A run never stops, and its mark is the earlier mark or that of any stimulus it met. -/
theorem exists_run_refusalMark (xs : List Stimulus) {s : State} {rest : List Stimulus} (hdriver : s.driver = xs ++ rest) :
    ∃ u, Sys2Proof.core.run xs.length s = .next u ∧
      u.refusalMark = (s.refusalMark || xs.any Stimulus.isRefused) := by
  induction xs generalizing s with
  | nil => exact ⟨s, core_run_zero s, by simp⟩
  | cons x xs ih =>
    have hstep := step_eq_presented s
    have hmark := step_refusalMark hstep
    obtain ⟨u, hrun, hu⟩ := ih ((step_driver hstep).trans (congrArg List.tail hdriver))
    refine ⟨u, (core_run_succ _ s).trans hrun, ?_⟩
    rw [hu, hmark, nextStimulus_of_driver hdriver, List.any_cons, Bool.or_assoc]

end Sys2Proof.Machine
end

section
/-! SUPPORT. One block's step inside the list of blocks (R69). -/

namespace Sys2Proof.Machine

/-- The state a block's step answers, as a function: no step stops. -/
def stepped (s : State) : State := (presented (nextStimulus s) s.dropStimulus).clockEdge

theorem step_eq_stepped (s : State) : step s = .next (stepped s) := step_eq_presented s

/-- A step at an index replaces the block there by its own next state and touches no other; where there is no block it
does nothing. -/
theorem stepAt_eq_modify (k : Nat) (xs : Instances) : stepAt k xs = .next (xs.modify k stepped) := by
  rw [List.modify_eq_set_getElem?]
  cases hk : xs[k]? with
  | none => simp [stepAt, hk]
  | some s => simp [stepAt, hk, step_eq_stepped]

/-- The block that steps reaches the state it would reach alone. -/
theorem getElem?_modify_stepped {xs : Instances} {k : Nat} {s t : State} (hk : xs[k]? = some s) (h : step s = .next t) :
    (xs.modify k stepped)[k]? = some t := by
  have ht : stepped s = t := (eq_of_step_next h).symm
  rw [List.getElem?_modify_eq, hk, Option.map_eq_map, Option.map_some, ht]

end Sys2Proof.Machine
end

section
/-! PROOFS. The statements about refusals and about instances (spec/60_exceptions.md). -/

namespace Sys2Proof.Machine

/-- Settles O7: the outcome by the operation code, the mark by one step, and over a run by induction on the stimuli. -/
theorem requestsHaveResultOrAreRefused : Obligations.RequestsHaveResultOrAreRefused := by
  refine ⟨fun w => ⟨requestOutcome_eq_refused_iff, fun hop => ?result⟩, fun s => ?oneStep, fun s xs rest hdriver => ?run⟩
  case result =>
    obtain ⟨i, hdecode⟩ := exists_decode_ok_of_op_ne_reserved hop
    exact ⟨i, hdecode, requestOutcome_of_decode_ok hdecode⟩
  case oneStep => exact ⟨_, step_eq_presented s, step_refusalMark (step_eq_presented s)⟩
  case run => exact exists_run_refusalMark xs hdriver

/-- Settles O46: a step of one block modifies the list at its index alone, and modifications at different indices
commute. -/
theorem instancesAreIndependent : Obligations.InstancesAreIndependent := by
  refine ⟨fun xs k => List.getElem?_map, fun xs j k hjk => ?_⟩
  have hcomm : (xs.modify j stepped).modify k stepped = (xs.modify k stepped).modify j stepped :=
    List.modify_modify_ne stepped stepped xs hjk
  refine ⟨xs.modify j stepped, xs.modify k stepped, (xs.modify j stepped).modify k stepped, stepAt_eq_modify j xs,
    stepAt_eq_modify k _, stepAt_eq_modify k xs, ?swapped, ?length, fun m hm => ?others, fun s t hs hstep => ?first,
    fun s t hs hstep => ?second⟩
  case swapped => rw [hcomm, stepAt_eq_modify]
  case length => simp only [List.length_modify]
  case others => exact List.getElem?_modify_ne stepped xs hm.symm
  case first => exact (List.getElem?_modify_ne stepped _ hjk.symm).trans (getElem?_modify_stepped hs hstep)
  case second => exact getElem?_modify_stepped ((List.getElem?_modify_ne stepped xs hjk).trans hs) hstep

end Sys2Proof.Machine
end

section
/-! SUPPORT. Runs as steps put end to end: every run ends in one state, and what each step keeps the run keeps. -/

namespace Sys2Proof.Machine

/-! ### Runs -/

theorem run_succ_of_step {s t : State} (h : step s = .next t) (k : Nat) :
    Sys2Proof.core.run (k + 1) s = Sys2Proof.core.run k t := by
  rw [core_run_succ, ← eq_of_step_next h]

theorem eq_of_run_zero {s u : State} (h : Sys2Proof.core.run 0 s = .next u) : u = s := by
  rw [core_run_zero] at h
  injection h with h
  exact h.symm

/-- A run never stops (R57). -/
theorem exists_run (k : Nat) (s : State) : ∃ u : State, Sys2Proof.core.run k s = .next u := by
  induction k generalizing s with
  | zero => exact ⟨s, core_run_zero s⟩
  | succ k ih =>
    obtain ⟨u, hu⟩ := ih (presented (nextStimulus s) s.dropStimulus).clockEdge
    exact ⟨u, (core_run_succ k s).trans hu⟩

/-- A property counted along a run: what every step under an allowed stimulus carries from `n` to `n + 1` is carried on
by as many as a run has. -/
theorem run_induction {P : Nat → State → Prop} {allowed : Stimulus → Prop}
    (hstep : ∀ {n : Nat} {s t : State}, P n s → allowed (nextStimulus s) → step s = .next t → P (n + 1) t)
    {xs rest : List Stimulus} {n : Nat} {s u : State} (hdriver : s.driver = xs ++ rest) (hxs : ∀ x ∈ xs, allowed x)
    (h : P n s) (hrun : Sys2Proof.core.run xs.length s = .next u) : P (n + xs.length) u := by
  induction xs generalizing n s with
  | nil => exact eq_of_run_zero hrun ▸ h
  | cons x xs ih =>
    obtain ⟨hx, hxs⟩ := List.forall_mem_cons.1 hxs
    have hone := step_eq_presented s
    have hnext : P (n + 1) _ := hstep h (nextStimulus_of_driver hdriver ▸ hx) hone
    rw [List.length_cons, run_succ_of_step hone] at hrun
    have hend := ih ((step_driver hone).trans (congrArg List.tail hdriver)) hxs hnext hrun
    rwa [List.length_cons, Nat.add_comm xs.length, ← Nat.add_assoc]

/-- A run under two lists of stimuli is a run under the first and then one under the second. -/
theorem exists_run_append {ys zs rest : List Stimulus} {s u : State} (hdriver : s.driver = ys ++ zs ++ rest)
    (hrun : Sys2Proof.core.run (ys ++ zs).length s = .next u) :
    ∃ t, Sys2Proof.core.run ys.length s = .next t ∧ t.driver = zs ++ rest ∧
      Sys2Proof.core.run zs.length t = .next u := by
  induction ys generalizing s with
  | nil => exact ⟨s, core_run_zero s, hdriver, hrun⟩
  | cons y ys ih =>
    have hone := step_eq_presented s
    rw [List.cons_append, List.length_cons, run_succ_of_step hone] at hrun
    obtain ⟨t, hfirst, hrest, hsecond⟩ := ih ((step_driver hone).trans (congrArg List.tail hdriver)) hrun
    exact ⟨t, (run_succ_of_step hone _).trans hfirst, hrest, hsecond⟩

theorem run_latency {xs rest : List Stimulus} {s u : State} (hdriver : s.driver = xs ++ rest)
    (hrun : Sys2Proof.core.run xs.length s = .next u) : u.latency = s.latency :=
  run_induction (P := fun _ t => t.latency = s.latency) (allowed := fun _ => True) (n := 0)
    (fun h _ hstep => (step_latency hstep).trans h) hdriver (fun _ _ => trivial) rfl hrun

end Sys2Proof.Machine
end

section
/-! SUPPORT. The power-up draws (R72, R75): how `boot` moves at a step and along a run, and what the ports show before and
after the draws are over. -/

namespace Sys2Proof.Machine

/-! ### The field `boot` -/

theorem State.settled_iff {s : State} : s.settled = true ↔ s.boot = .wasReset 0 := by
  cases h : s.boot <;> simp [State.settled, h]

theorem State.beenReset_iff {s : State} : s.beenReset = true ↔ ∃ n, s.boot = .wasReset n := by
  cases h : s.boot <;> simp [State.beenReset, h]

theorem State.bootBounded_iff {s : State} : s.bootBounded = true ↔ ∀ n, s.boot = .wasReset n → n ≤ s.latency := by
  cases h : s.boot <;> simp [State.bootBounded, h]

section

variable {s t : State}

theorem step_draws (hs : 0 < s.latency) (h : step s = .next t) : t.draws = s.draws + 1 := by
  rw [eq_of_step_next h, State.clockEdge_draws, if_neg (by simpa using hs.ne')]
  simp

/-- Of a never-reset block, only a reset edge begins the count (R75). -/
theorem step_boot_of_neverReset (hs : 0 < s.latency) (h : step s = .next t) (hb : s.boot = .neverReset) :
    t.boot = if (nextStimulus s).noReset = true then .neverReset else .wasReset s.latency := by
  rw [step_boot hs h, hb, bootAtEdge, bootAtReset]

/-- Once the count has begun every edge counts it down, a reset edge too (R75, log 7). -/
theorem step_boot_of_wasReset {n : Nat} (hs : 0 < s.latency) (h : step s = .next t) (hb : s.boot = .wasReset n) :
    t.boot = .wasReset (n - 1) := by
  rw [step_boot hs h, hb, bootAtEdge, bootAtReset, ite_self]

/-- A reset edge leaves LATENCY edges of draws where it is the first, one fewer than before otherwise (R75, log 7). -/
theorem exists_boot_of_reset (hs : 0 < s.latency) (h : step s = .next t) (hr : (nextStimulus s).noReset = false) :
    ∃ left, t.boot = .wasReset left ∧ (s.boot = .neverReset → left = s.latency) ∧
      ∀ n, s.boot = .wasReset n → left = n - 1 := by
  cases hb : s.boot with
  | neverReset => exact ⟨s.latency, by simp [step_boot_of_neverReset hs h hb, hr], fun _ => rfl, nofun⟩
  | wasReset n => exact ⟨n - 1, step_boot_of_wasReset hs h hb, nofun, fun _ hm => Boot.wasReset.inj hm ▸ rfl⟩

/-- At every LATENCY, the edges left never grow by a step. -/
theorem exists_step_boot_le {n : Nat} (h : step s = .next t) (hb : s.boot = .wasReset n) :
    ∃ m, m ≤ n ∧ t.boot = .wasReset m := by
  rcases Nat.eq_zero_or_pos s.latency with hs | hs
  · exact ⟨n, le_rfl, by simpa [eq_presented_of_step_combinational hs h] using hb⟩
  · exact ⟨n - 1, Nat.sub_le n 1, step_boot_of_wasReset hs h hb⟩

theorem step_beenReset (h : step s = .next t) (hbeen : s.beenReset = true) : t.beenReset = true := by
  obtain ⟨n, hn⟩ := State.beenReset_iff.1 hbeen
  obtain ⟨m, -, hm⟩ := exists_step_boot_le h hn
  exact State.beenReset_iff.2 ⟨m, hm⟩

theorem step_bootBounded (h : step s = .next t) (hbound : s.bootBounded = true) : t.bootBounded = true := by
  refine State.bootBounded_iff.2 fun m hm => ?_
  rw [step_latency h]
  cases hb : s.boot with
  | wasReset n =>
    obtain ⟨m', hle, hm'⟩ := exists_step_boot_le h hb
    obtain rfl : m = m' := Boot.wasReset.inj (hm.symm.trans hm')
    exact hle.trans (State.bootBounded_iff.1 hbound n hb)
  | neverReset =>
    rcases Nat.eq_zero_or_pos s.latency with hs | hs
    · simp [eq_presented_of_step_combinational hs h, hb] at hm
    · rw [step_boot_of_neverReset hs h hb] at hm
      split at hm
      · cases hm
      · exact (Boot.wasReset.inj hm).ge

end

section

variable {xs rest : List Stimulus} {s u : State}

theorem run_boot_of_neverReset (hs : 0 < s.latency) (hb : s.boot = .neverReset) (hdriver : s.driver = xs ++ rest)
    (hxs : ∀ x ∈ xs, x.noReset = true) (hrun : Sys2Proof.core.run xs.length s = .next u) : u.boot = .neverReset := by
  have hkept := run_induction (P := fun _ t => 0 < t.latency ∧ t.boot = .neverReset)
    (allowed := fun x => x.noReset = true) (n := 0) ?step hdriver hxs ⟨hs, hb⟩ hrun
  case step =>
    rintro _ s t ⟨hs, hb⟩ hr hstep
    exact ⟨step_latency hstep ▸ hs, by rw [step_boot_of_neverReset hs hstep hb, if_pos hr]⟩
  exact hkept.2

/-- A run counts the draws down by its length, whatever is presented (R75). -/
theorem run_boot_of_wasReset {n : Nat} (hs : 0 < s.latency) (hb : s.boot = .wasReset n)
    (hdriver : s.driver = xs ++ rest) (hrun : Sys2Proof.core.run xs.length s = .next u) :
    u.boot = .wasReset (n - xs.length) := by
  have hkept := run_induction (P := fun k t => 0 < t.latency ∧ t.boot = .wasReset (n - k))
    (allowed := fun _ => True) (n := 0) ?step hdriver (fun _ _ => trivial) ⟨hs, hb⟩ hrun
  case step =>
    rintro k s t ⟨hs, hb⟩ - hstep
    exact ⟨step_latency hstep ▸ hs, by rw [step_boot_of_wasReset hs hstep hb, Nat.sub_sub]⟩
  rw [hkept.2, Nat.zero_add]

/-- As many stimuli as draws were left end them (R75). -/
theorem run_settled {n : Nat} (hs : 0 < s.latency) (hb : s.boot = .wasReset n) (hn : n ≤ xs.length)
    (hdriver : s.driver = xs ++ rest) (hrun : Sys2Proof.core.run xs.length s = .next u) : u.settled = true := by
  rw [State.settled_iff, run_boot_of_wasReset hs hb hdriver hrun, Nat.sub_eq_zero_of_le hn]

end

/-! ### The ports while the draws last (R72, R75) -/

/-- Every output and both strobes of the block are draws. -/
def State.showsDraws (s : State) : Prop :=
  s.encPix = Config.drawEncPix s.draws ∧ s.decOut = drawnDecOut s.draws ∧
    s.encOutValid = some (Config.drawEncOutValid s.draws) ∧ s.decOutValid = some (Config.drawDecOutValid s.draws)

theorem State.showsDraws_of_unsettled {s : State} (hs : 0 < s.latency) (hset : s.settled = false) : s.showsDraws := by
  simp [State.showsDraws, State.encPix, State.decOut, State.encOutValid, State.decOutValid, hset, hs.ne']

theorem State.showsDraws_of_neverReset {s : State} (hs : 0 < s.latency) (hb : s.boot = .neverReset) : s.showsDraws :=
  State.showsDraws_of_unsettled hs (by rw [State.settled, hb])

theorem State.showsDraws_of_wasReset_pos {s : State} {n : Nat} (hs : 0 < s.latency) (hb : s.boot = .wasReset n)
    (hn : 0 < n) : s.showsDraws :=
  State.showsDraws_of_unsettled hs (by simp [State.settled, hb, hn.ne'])

/-! ### The ports of an empty interval (R72, R73) -/

theorem State.encOutValid_of_shown_none {s : State} (hs : 0 < s.latency) (hset : s.settled = true)
    (h : shownSlot s.encPipe = none) : s.encOutValid = some false := by
  rw [State.encOutValid_of_settled hs hset, h, Option.isSome_none]

theorem State.decOutValid_of_shown_none {s : State} (hs : 0 < s.latency) (hset : s.settled = true)
    (h : shownSlot s.decPipe = none) : s.decOutValid = some false := by
  rw [State.decOutValid_of_settled hs hset, h, Option.isSome_none]

/-- An encoder whose strobe is 0 shows a draw, whether the 0 is itself a draw or says that the oldest slot is empty. -/
theorem State.encPix_of_encOutValid_false {s : State} (h : s.encOutValid = some false) :
    s.encPix = Config.drawEncPix s.draws := by
  have hs : s.latency ≠ 0 := fun hzero => by simp [State.encOutValid, hzero] at h
  cases hset : s.settled with
  | false => simp [State.encPix, hs, hset]
  | true =>
    have hshown : shownSlot s.encPipe = none := by simpa [State.encOutValid, hs, hset] using h
    simp [State.encPix, hs, hset, hshown]

/-- As `State.encPix_of_encOutValid_false`, for the decoder. -/
theorem State.decOut_of_decOutValid_false {s : State} (h : s.decOutValid = some false) :
    s.decOut = drawnDecOut s.draws := by
  have hs : s.latency ≠ 0 := fun hzero => by simp [State.decOutValid, hzero] at h
  cases hset : s.settled with
  | false => simp [State.decOut, hs, hset]
  | true =>
    have hshown : shownSlot s.decPipe = none := by simpa [State.decOutValid, hs, hset] using h
    simp [State.decOut, hs, hset, hshown]

/-! ### Ports are a function of the unit's queue, LATENCY, `boot` and the draw counter -/

section

variable {t t' : State}

theorem State.encPorts_congr (hl : t.latency = t'.latency) (hb : t.boot = t'.boot) (hd : t.draws = t'.draws)
    (hs : 0 < t.latency) (hp : t.encPipe = t'.encPipe) : t.encPix = t'.encPix ∧ t.encOutValid = t'.encOutValid := by
  simp [State.encPix, State.encOutValid, State.settled_congr hb, ← hl, hs.ne', hd, hp]

theorem State.decPorts_congr (hl : t.latency = t'.latency) (hb : t.boot = t'.boot) (hd : t.draws = t'.draws)
    (hs : 0 < t.latency) (hp : t.decPipe = t'.decPipe) : t.decOut = t'.decOut ∧ t.decOutValid = t'.decOutValid := by
  simp [State.decOut, State.decOutValid, State.settled_congr hb, ← hl, hs.ne', hd, hp]

end

end Sys2Proof.Machine
end

section
/-! SUPPORT. Queues after a reset edge (R71): how long the slots at their front stay empty. The two units' queues move
alike, so each fact is stated for a queue that moves as `step_pipes` says. -/

namespace Sys2Proof.Machine

/-- The oldest `m` slots of a full queue are empty. -/
def FrontEmpty {α : Type} (latency m : Nat) (pipe : List (Option α)) : Prop :=
  pipe.length = latency ∧ List.replicate m none <+: pipe

section

variable {α : Type} {latency m : Nat} {pipe : List (Option α)}

theorem frontEmpty_replicate (hm : m ≤ latency) :
    FrontEmpty latency m (List.replicate latency (none : Option α)) :=
  ⟨List.length_replicate, List.prefix_replicate_iff.2 ⟨by simpa using hm, by simp⟩⟩

theorem FrontEmpty.le_latency (h : FrontEmpty latency m pipe) : m ≤ latency := by
  obtain ⟨hlen, hfront⟩ := h
  simpa [hlen] using hfront.length_le

/-- One slot enters: one empty slot fewer at the front. -/
theorem FrontEmpty.of_pushSlot (h : FrontEmpty latency m pipe) (slot : Option α) :
    FrontEmpty latency (m - 1) (pushSlot latency pipe slot) := by
  obtain ⟨hlen, younger, hpipe⟩ := h
  refine ⟨pushSlot_length _ _ _ hlen, ?_⟩
  rw [pushSlot_of_full _ _ _ hlen, ← hpipe]
  cases m with
  | zero => exact List.nil_prefix
  | succ m => exact ⟨younger ++ [slot], by simp [List.replicate_succ]⟩

theorem FrontEmpty.shownSlot_eq_none (h : FrontEmpty latency m pipe) (hm : 0 < m) : shownSlot pipe = none := by
  obtain ⟨-, younger, rfl⟩ := h
  obtain ⟨k, rfl⟩ := Nat.exists_eq_succ_of_ne_zero hm.ne'
  rfl

end

theorem step_pipes_of_reset {s t : State} (hs : 0 < s.latency) (h : step s = .next t)
    (hr : (nextStimulus s).noReset = false) :
    t.encPipe = List.replicate s.latency none ∧ t.decPipe = List.replicate s.latency none := by
  simpa [hr] using step_pipes hs h

theorem noReset_of_rst {x : Inputs} (h : x.rst = true) : (Stimulus.ports x).noReset = false := by
  simp [Stimulus.noReset, h]

/-- How a unit's queue moves at an edge (R71, R73): `step_pipes` for one of the two units. -/
def MovesAsQueue {α : Type} (pipe : State → List (Option α)) (slot : Stimulus → Option α) : Prop :=
  ∀ {s t : State}, 0 < s.latency → step s = .next t →
    pipe t = if (nextStimulus s).noReset = true then pushSlot s.latency (pipe s) (slot (nextStimulus s))
      else List.replicate s.latency none

theorem encPipe_movesAsQueue : MovesAsQueue State.encPipe Stimulus.encSlot := fun hs h => (step_pipes hs h).1

theorem decPipe_movesAsQueue : MovesAsQueue State.decPipe Stimulus.decSlot := fun hs h => (step_pipes hs h).2

section

variable {α : Type} {pipe : State → List (Option α)} {slot : Stimulus → Option α} {s u : State}

/-- An empty queue stays empty while its unit is given no request, reset edges among the stimuli or not. -/
theorem MovesAsQueue.run_empty (hpipe : MovesAsQueue pipe slot) {ys rest : List Stimulus} (hs : 0 < s.latency)
    (hempty : pipe s = List.replicate s.latency none) (hdriver : s.driver = ys ++ rest)
    (hys : ∀ y ∈ ys, slot y = none) (hrun : Sys2Proof.core.run ys.length s = .next u) :
    pipe u = List.replicate u.latency none := by
  have hkept := run_induction (P := fun _ t => 0 < t.latency ∧ pipe t = List.replicate t.latency none)
    (allowed := fun y => slot y = none) (n := 0) ?step hdriver hys ⟨hs, hempty⟩ hrun
  case step =>
    rintro _ s t ⟨hs, hempty⟩ hnone hstep
    rw [hpipe hs hstep, hempty, hnone, pushSlot_replicate_none, ite_self, step_latency hstep]
    exact ⟨hs, rfl⟩
  exact hkept.2

/-- Each stimulus, whatever it is, uses up at most one of the empty slots at the front. -/
theorem MovesAsQueue.run_frontEmpty (hpipe : MovesAsQueue pipe slot) {zs rest : List Stimulus} {m : Nat}
    (hs : 0 < s.latency) (hfront : FrontEmpty s.latency m (pipe s)) (hdriver : s.driver = zs ++ rest)
    (hrun : Sys2Proof.core.run zs.length s = .next u) : FrontEmpty u.latency (m - zs.length) (pipe u) := by
  have hkept := run_induction (P := fun k t => 0 < t.latency ∧ FrontEmpty t.latency (m - k) (pipe t))
    (allowed := fun _ => True) (n := 0) ?step hdriver (fun _ _ => trivial) ⟨hs, hfront⟩ hrun
  case step =>
    rintro k s t ⟨hs, hfront⟩ - hstep
    rw [hpipe hs hstep, step_latency hstep, ← Nat.sub_sub]
    refine ⟨hs, ?_⟩
    split
    · exact hfront.of_pushSlot _
    · exact frontEmpty_replicate ((Nat.sub_le _ 1).trans hfront.le_latency)
  rw [Nat.zero_add] at hkept
  exact hkept.2

/-- From an empty queue, stimuli that give the unit no request and then fewer than LATENCY arbitrary ones leave the oldest
slot empty (R71). -/
theorem MovesAsQueue.run_shownSlot_eq_none (hpipe : MovesAsQueue pipe slot) {ys zs rest : List Stimulus} (hs : 0 < s.latency)
    (hempty : pipe s = List.replicate s.latency none) (hdriver : s.driver = ys ++ zs ++ rest)
    (hys : ∀ y ∈ ys, slot y = none) (hzs : zs.length < s.latency)
    (hrun : Sys2Proof.core.run (ys ++ zs).length s = .next u) : shownSlot (pipe u) = none := by
  obtain ⟨t, hfirst, hrest, hsecond⟩ := exists_run_append hdriver hrun
  have hys_zs : s.driver = ys ++ (zs ++ rest) := hdriver.trans (List.append_assoc ys zs rest)
  have hlat : t.latency = s.latency := run_latency hys_zs hfirst
  have hmiddle := hpipe.run_empty hs hempty hys_zs hys hfirst
  have hfront : FrontEmpty t.latency t.latency (pipe t) := hmiddle ▸ frontEmpty_replicate le_rfl
  exact (hpipe.run_frontEmpty (hlat ▸ hs) hfront hrest hsecond).shownSlot_eq_none (Nat.sub_pos_of_lt (hlat ▸ hzs))

end

end Sys2Proof.Machine
end

section
/-! SUPPORT. When a result is due (R73, R74): the queues and the ports LATENCY edges after a reset block's full queues. -/

namespace Sys2Proof.Machine

theorem sampledEnc_eq_ite (x : Inputs) :
    sampledEnc x = if x.encInValid = true then some (encOperand x) else none := by
  cases h : x.encInValid <;> simp [sampledEnc, h]

theorem sampledDec_eq_ite (x : Inputs) : sampledDec x = if x.decInValid = true then some x.decPix else none := by
  cases h : x.decInValid <;> simp [sampledDec, h]

/-- LATENCY edges without reset replace both queues by the stimuli's own slots, and end the power-up draws of a block that
has been reset. -/
theorem exists_run_latency {s : State} {xs rest : List Stimulus} (hfull : s.queuesFull) (hbeen : s.beenReset = true)
    (hbound : s.bootBounded = true) (hs : 0 < s.latency) (hlat : s.latency = xs.length) (hdriver : s.driver = xs ++ rest)
    (hxs : ∀ x ∈ xs, x.noReset = true) :
    ∃ u, Sys2Proof.core.run xs.length s = .next u ∧ u.latency = s.latency ∧ u.settled = true ∧
      u.encPipe = xs.map Stimulus.encSlot ∧ u.decPipe = xs.map Stimulus.decSlot := by
  obtain ⟨henc, hdec⟩ := hfull
  obtain ⟨n, hn⟩ := State.beenReset_iff.1 hbeen
  have hle : n ≤ xs.length := hlat ▸ State.bootBounded_iff.1 hbound n hn
  obtain ⟨u, hrun, -, -, huenc, hudec⟩ := queuesKeepRequestOrder s xs rest ⟨henc, hdec⟩ hdriver hxs
  refine ⟨u, hrun, run_latency hdriver hrun, run_settled hs hn hle hdriver hrun, ?enc, ?dec⟩
  case enc => rw [huenc, List.drop_left' (henc.trans hlat)]
  case dec => rw [hudec, List.drop_left' (hdec.trans hlat)]

/-! The slot of a request word is its operation's operand, in the queue of the operation's unit (R28, R73). -/

section

variable {w : RequestWord}

theorem encSlot_of_decode_enc {r g b a : Byte} (h : decode w = .ok (.enc r g b a)) :
    (Stimulus.request w).encSlot = some (.generic r g b a) := by
  simp only [Stimulus.encSlot, h]

theorem encSlot_of_decode_encRaw {p : Pixel} (h : decode w = .ok (.encRaw p)) :
    (Stimulus.request w).encSlot = some (.raw p) := by
  simp only [Stimulus.encSlot, h]

theorem decSlot_of_decode_dec {p : Pixel} (h : decode w = .ok (.dec p)) : (Stimulus.request w).decSlot = some p := by
  simp only [Stimulus.decSlot, h]

end

/-- A combinational block shows a request's result in the step that presents it, and has no strobe (R15, R71). -/
theorem exists_step_result_of_combinational {s : State} {w : RequestWord} {i : Instr} (hs : s.latency = 0)
    (hnext : nextStimulus s = .request w) (hdecode : decode w = .ok i) :
    ∃ t, step s = .next t ∧ t.shownWord i = resultWord i ∧ t.shownValid i = none := by
  have hlat : s.dropStimulus.latency = 0 := hs
  refine ⟨_, step_of_request hnext hdecode, ?_⟩
  rw [State.clockEdge_of_combinational (by simpa using hs)]
  refine ⟨shownWord_driven i hlat, ?_⟩
  cases i <;> simp [State.shownValid, State.encOutValid, State.decOutValid, hs]

end Sys2Proof.Machine
end

section
/-! PROOFS. The statements about reset, power-up and LATENCY (spec/70_reset_and_hazards.md). -/

namespace Sys2Proof.Machine

/-- Settles O32: an edge keeps full queues full, and a full queue has no more requests than slots. -/
theorem stepKeepsQueuesFull : Obligations.StepKeepsQueuesFull := by
  intro s t hfull h
  have hlat : t.latency = s.latency := step_latency h
  obtain ⟨henc, hdec⟩ := step_queuesFull h hfull
  exact ⟨⟨henc, hdec⟩, hlat, (List.length_filter_le _ _).trans (henc.trans hlat).le,
    (List.length_filter_le _ _).trans (hdec.trans hlat).le⟩

/-- Settles O33: the queues of a reset and of a power-up state are LATENCY empty slots. -/
theorem resetQueuesFull : Obligations.ResetQueuesFull := by
  have hreset (n : Nat) : (State.resetWith n).queuesFull := ⟨List.length_replicate, List.length_replicate⟩
  exact ⟨hreset, hreset, hreset _⟩

/-- Settles O34: a reset edge leaves empty queues; a run counts the draws down, and the oldest slot stays empty until
LATENCY edges from its unit's first request. -/
theorem resetEmptiesQueues : Obligations.ResetEmptiesQueues := by
  refine ⟨fun s hs => ⟨State.encPix_of_combinational hs, State.decOut_of_combinational hs, fun x rest hdriver => ?_⟩,
    fun s x ys zs rest hs hrst hdriver => ?_⟩
  · have hstep := step_of_ports (nextStimulus_of_driver hdriver)
    rw [State.clockEdge_of_combinational (by simpa using hs)] at hstep
    exact ⟨_, hstep, State.encPix_of_combinational hs, State.decOut_of_combinational hs⟩
  · have hr : (nextStimulus s).noReset = false := nextStimulus_of_driver hdriver ▸ noReset_of_rst hrst
    obtain ⟨t, hstep⟩ : ∃ t, step s = .next t := ⟨_, step_eq_presented s⟩
    obtain ⟨henc, hdec⟩ := step_pipes_of_reset hs hstep hr
    obtain ⟨left, hboot, hfirst, hlater⟩ := exists_boot_of_reset hs hstep hr
    have hlat : t.latency = s.latency := step_latency hstep
    have ht : 0 < t.latency := hlat ▸ hs
    have htdriver : t.driver = ys ++ zs ++ rest := by rw [step_driver hstep, hdriver, List.tail_cons]
    refine ⟨t, left, hstep, henc, hdec, hboot, hfirst, hlater, ?settled, ?lasting, ?run⟩
    case settled =>
      rintro rfl
      have hset := State.settled_of_wasReset_zero hboot
      exact ⟨State.encOutValid_of_shown_none ht hset (by rw [henc, shownSlot_replicate_none]),
        State.decOutValid_of_shown_none ht hset (by rw [hdec, shownSlot_replicate_none])⟩
    case lasting =>
      intro hleft
      obtain ⟨-, -, hencValid, hdecValid⟩ := State.showsDraws_of_wasReset_pos ht hboot hleft
      exact ⟨hencValid, hdecValid⟩
    case run =>
      intro hzs hleft
      obtain ⟨u, hrun⟩ := exists_run (ys ++ zs).length t
      have hu : 0 < u.latency := run_latency htdriver hrun ▸ ht
      have hset : u.settled = true := run_settled ht hboot hleft htdriver hrun
      rw [← hlat] at henc hdec hzs
      exact ⟨u, hrun,
        fun hys => State.encOutValid_of_shown_none hu hset
          (encPipe_movesAsQueue.run_shownSlot_eq_none ht henc htdriver hys hzs hrun),
        fun hys => State.decOutValid_of_shown_none hu hset
          (decPipe_movesAsQueue.run_shownSlot_eq_none ht hdec htdriver hys hzs hrun)⟩

/-- Settles O35: empty queues give strobe 0 once the draws are over, and every way to a strobe of 0 leaves the outputs
draws. -/
theorem resetValuesAndDraws : Obligations.ResetValuesAndDraws := by
  refine ⟨fun n => ⟨fun _ => List.eq_of_mem_replicate, fun _ => List.eq_of_mem_replicate, fun hn => ?strobes⟩,
    fun s => State.encPix_of_encOutValid_false, fun s => State.decOut_of_decOutValid_false, fun n hn k => ?powerUp⟩
  case strobes =>
    exact ⟨State.encOutValid_of_shown_none hn rfl (shownSlot_replicate_none n),
      State.decOutValid_of_shown_none hn rfl (shownSlot_replicate_none n)⟩
  case powerUp =>
    obtain ⟨-, -, henc, hdec⟩ :=
      State.showsDraws_of_neverReset (s := { State.powerUp n with draws := k }) hn rfl
    exact ⟨henc, hdec⟩

/-- Settles O36: while the draws last the ports show them, and `boot` moves by the equations of one step. -/
theorem onlyResetEdgeEndsPowerUp : Obligations.OnlyResetEdgeEndsPowerUp := by
  intro s hs hset
  obtain ⟨hpix, hout, henc, hdec⟩ := State.showsDraws_of_unsettled hs hset
  have hstep := step_eq_presented s
  exact ⟨hpix, hout, henc, hdec, _, hstep, step_draws hs hstep, step_boot_of_neverReset hs hstep,
    fun _ => step_boot_of_wasReset hs hstep⟩

/-- Settles O37: without a reset `boot` stays at `neverReset`; the first reset edge sets the count to LATENCY, and the
stimuli after it count it down. -/
theorem powerUpDrawsLastLatencyEdges : Obligations.PowerUpDrawsLastLatencyEdges := by
  refine ⟨fun s xs rest hs hb hdriver hxs => ?never, fun s x ys rest hs hb hrst hdriver => ?first⟩
  case never =>
    obtain ⟨u, hrun⟩ := exists_run xs.length s
    have hboot := run_boot_of_neverReset hs hb hdriver hxs hrun
    exact ⟨u, hrun, hboot, State.showsDraws_of_neverReset (run_latency hdriver hrun ▸ hs) hboot⟩
  case first =>
    have hr : (nextStimulus s).noReset = false := nextStimulus_of_driver hdriver ▸ noReset_of_rst hrst
    obtain ⟨t, hstep⟩ : ∃ t, step s = .next t := ⟨_, step_eq_presented s⟩
    have ht : 0 < t.latency := step_latency hstep ▸ hs
    have htdriver : t.driver = ys ++ rest := by rw [step_driver hstep, hdriver, List.tail_cons]
    have htboot : t.boot = .wasReset s.latency := by simp [step_boot_of_neverReset hs hstep hb, hr]
    obtain ⟨u, hrun⟩ := exists_run ys.length t
    have hu : 0 < u.latency := run_latency htdriver hrun ▸ ht
    refine ⟨u, (run_succ_of_step hstep _).trans hrun, fun hshort => ?_, fun hlong => ?_⟩
    · exact State.showsDraws_of_wasReset_pos hu (run_boot_of_wasReset ht htboot htdriver hrun)
        (Nat.sub_pos_of_lt hshort)
    · have hset : u.settled = true := run_settled ht htboot hlong htdriver hrun
      exact ⟨hset, State.encOutValid_of_settled hu hset, State.decOutValid_of_settled hu hset⟩

/-- Settles O38: a first reset sets the count to LATENCY, and every other step leaves it or counts it down. -/
theorem stepKeepsBootBounded : Obligations.StepKeepsBootBounded := by
  refine ⟨fun s t hbound h => ⟨step_bootBounded h hbound, step_beenReset h⟩, fun n => ⟨?_, rfl, rfl⟩⟩
  exact State.bootBounded_iff.2 fun m hm => Boot.wasReset.inj hm ▸ Nat.zero_le n

/-- Settles O43: after the step the two blocks agree on all that the unit's ports are a function of. -/
theorem equalCountersDrawAlike : Obligations.EqualCountersDrawAlike := by
  intro s s' t t' hl hb hd hs hr h h'
  have hs' : 0 < s'.latency := hl ▸ hs
  have ht : 0 < t.latency := step_latency h ▸ hs
  have hl' : t.latency = t'.latency := by rw [step_latency h, step_latency h', hl]
  have hb' : t.boot = t'.boot := by rw [step_boot hs h, step_boot hs' h', hr, hb, hl]
  have hd' : t.draws = t'.draws := by rw [step_draws hs h, step_draws hs' h', hd]
  obtain ⟨henc, hdec⟩ := step_pipes hs h
  obtain ⟨henc', hdec'⟩ := step_pipes hs' h'
  refine ⟨fun hp hslot => State.encPorts_congr hl' hb' hd' ht ?_,
    fun hp hslot => State.decPorts_congr hl' hb' hd' ht ?_⟩
  · rw [henc, henc', hr, hl, hp, hslot]
  · rw [hdec, hdec', hr, hl, hp, hslot]

/-- Settles O40: after LATENCY edges the queues are the stimuli's own slots, the first stimulus's the oldest, and the draws
are over. -/
theorem resultAppearsAfterLatencyEdges : Obligations.ResultAppearsAfterLatencyEdges := by
  refine ⟨fun s x xs rest hfull hbeen hbound hlat hdriver hx hxs => ?due,
    fun x => ⟨sampledEnc_eq_ite x, sampledDec_eq_ite x⟩, fun s x rest hs hdriver hrst => ?reset⟩
  case due =>
    have hs : 0 < s.latency := hlat ▸ Nat.succ_pos _
    obtain ⟨u, hrun, hulat, hset, henc, hdec⟩ :=
      exists_run_latency (xs := x :: xs) hfull hbeen hbound hs hlat hdriver (List.forall_mem_cons.2 ⟨hx, hxs⟩)
    have hu : 0 < u.latency := hulat ▸ hs
    have hencShown : shownSlot u.encPipe = x.encSlot := by rw [henc, List.map_cons, shownSlot_cons]
    have hdecShown : shownSlot u.decPipe = x.decSlot := by rw [hdec, List.map_cons, shownSlot_cons]
    exact ⟨u, hrun, hencShown ▸ State.encOutValid_of_settled hu hset, hdecShown ▸ State.decOutValid_of_settled hu hset,
      fun e he => State.encPix_of_shown hu hset (hencShown.trans he),
      fun p hp => State.decOut_of_shown hu hset (hdecShown.trans hp), henc, hdec⟩
  case reset =>
    have hstep := step_eq_presented s
    obtain ⟨henc, hdec⟩ :=
      step_pipes_of_reset hs hstep (nextStimulus_of_driver hdriver ▸ noReset_of_rst hrst)
    refine ⟨_, hstep, ?_, ?_⟩
    · rw [henc]
      exact fun _ => List.eq_of_mem_replicate
    · rw [hdec]
      exact fun _ => List.eq_of_mem_replicate

/-- Settles O41: with LATENCY 0 the step itself shows the result; otherwise the request is the oldest slot once due. -/
theorem resultIndependentOfTimeAndHistory : Obligations.ResultIndependentOfTimeAndHistory := by
  intro s i w xs rest hfull hready hdecode hdriver hdue hxs
  rcases Nat.eq_zero_or_pos s.latency with hs | hs
  · obtain ⟨t, hstep, hword, hvalid⟩ :=
      exists_step_result_of_combinational hs (nextStimulus_of_driver hdriver) hdecode
    obtain rfl : xs = [] := List.length_eq_zero_iff.1 (by omega)
    exact ⟨t, (run_succ_of_step hstep 0).trans (core_run_zero t), hword, by rw [if_pos hs, hvalid]⟩
  · obtain ⟨hbeen, hbound⟩ := hready.resolve_left hs.ne'
    have hlat : s.latency = xs.length + 1 := by omega
    obtain ⟨u, hrun, hencValid, hdecValid, henc, hdec, -, -⟩ :=
      resultAppearsAfterLatencyEdges.1 s (.request w) xs rest hfull hbeen hbound hlat hdriver rfl hxs
    refine ⟨u, hrun, ?_⟩
    rw [if_neg hs.ne']
    cases i with
    | enc r g b a =>
      have hslot := encSlot_of_decode_enc hdecode
      exact ⟨congrArg encResultWord (henc _ hslot), hencValid.trans (by rw [hslot, Option.isSome_some])⟩
    | encRaw p =>
      have hslot := encSlot_of_decode_encRaw hdecode
      exact ⟨congrArg encResultWord (henc _ hslot), hencValid.trans (by rw [hslot, Option.isSome_some])⟩
    | dec p =>
      have hslot := decSlot_of_decode_dec hdecode
      exact ⟨congrArg decResultWord (hdec _ hslot), hdecValid.trans (by rw [hslot, Option.isSome_some])⟩

end Sys2Proof.Machine
end

section
/-! SUPPORT. Request words cut into adjacent fields and put together again, and the ignored bits cleared (R28, R32). -/

namespace Sys2Proof

/-! ### A request word is its adjacent fields (R28) -/

section

variable (w : RequestWord)

theorem pixelFields_append : opOf w ++ w.extractLsb' 16 16 ++ w.extractLsb' 0 16 = w := by
  have hhigh : opOf w ++ w.extractLsb' 16 16 = w.extractLsb' 16 18 :=
    BitVec.extractLsb'_append_extractLsb'_eq_extractLsb' rfl
  rw [hhigh]
  exact BitVec.extractLsb'_append_extractLsb'

theorem encFields_append :
    opOf w ++ w.extractLsb' 24 8 ++ w.extractLsb' 16 8 ++ w.extractLsb' 8 8 ++ w.extractLsb' 0 8 = w := by
  have halpha : opOf w ++ w.extractLsb' 24 8 = w.extractLsb' 24 10 :=
    BitVec.extractLsb'_append_extractLsb'_eq_extractLsb' rfl
  have hred : w.extractLsb' 24 10 ++ w.extractLsb' 16 8 = w.extractLsb' 16 18 :=
    BitVec.extractLsb'_append_extractLsb'_eq_extractLsb' rfl
  have hgreen : w.extractLsb' 16 18 ++ w.extractLsb' 8 8 = w.extractLsb' 8 26 :=
    BitVec.extractLsb'_append_extractLsb'_eq_extractLsb' rfl
  rw [halpha, hred, hgreen]
  exact BitVec.extractLsb'_append_extractLsb'

end

/-! ### The ignored bits cleared (R32) -/

/-- Clearing the ignored bits of a pixel's word leaves its code and its pixel. -/
theorem pixelWord_and_not_mask (op : BitVec 2) (x : BitVec 16) (p : Pixel) :
    (op ++ x ++ p) &&& ~~~0x0FFFF0000#34 = op ++ 0#16 ++ p := by
  have hmask : ~~~0x0FFFF0000#34 = BitVec.allOnes 2 ++ 0#16 ++ BitVec.allOnes 16 := by decide
  rw [hmask, BitVec.and_append, BitVec.and_append, BitVec.and_allOnes, BitVec.and_zero, BitVec.and_allOnes]

section

variable {w : RequestWord}

theorem and_not_ignoredBits_of_op_enc (h : opOf w = 0b00#2) : w &&& ~~~ignoredBits w = w := by
  rw [ignoredBits_of_op_enc h, BitVec.not_zero, BitVec.and_allOnes]

theorem and_not_ignoredBits_of_op_pixel (h : opOf w = 0b01#2 ∨ opOf w = 0b10#2) :
    w &&& ~~~ignoredBits w = opOf w ++ 0#16 ++ w.extractLsb' 0 16 := by
  rw [ignoredBits_of_op_pixel h, ← pixelWord_and_not_mask (opOf w) (w.extractLsb' 16 16), pixelFields_append]

/-- A word that decodes is the word of its operation, but for the bits the operation ignores. -/
theorem encode_of_decode_ok {i : Instr} (h : decode w = .ok i) : encode i = w &&& ~~~ignoredBits w := by
  rcases op_cases (opOf w) with hop | hop | hop | hop
  · cases (decode_of_op_enc hop).symm.trans h
    rw [and_not_ignoredBits_of_op_enc hop, encode, ← hop]
    exact encFields_append w
  · cases (decode_of_op_encRaw hop).symm.trans h
    rw [and_not_ignoredBits_of_op_pixel (.inl hop), hop, encode]
  · cases (decode_of_op_dec hop).symm.trans h
    rw [and_not_ignoredBits_of_op_pixel (.inr hop), hop, encode]
  · cases (decode_of_op_reserved hop).symm.trans h

end

theorem decodeTableWord_eq_some_iff {nbits w : Nat} {i : Instr} :
    decodeTableWord nbits w = some i ↔ decode (tableWord nbits w) = .ok i := by
  cases h : decode (tableWord nbits w) <;> simp [decodeTableWord, h]

end Sys2Proof
end

section
/-! SUPPORT. Which lines the assembler accepts (R35): just those whose literals are in range, and none with a literal
that has no digit (log 14). -/

namespace Sys2Proof.Machine

theorem fits_iff {n : Nat} {l : Literal} : l.fits n = true ↔ ∃ v, literalField n l = some v :=
  Option.isSome_iff_exists

/-- The alpha that the three-operand ENC stands for is in range. -/
theorem wellFormed_enc3 (r g b : Literal) :
    AsmLine.wellFormed (.enc3 r g b) = AsmLine.wellFormed (.enc r g b (.hex [15, 15])) := by
  have halpha : Literal.fits 8 (.hex [15, 15]) = true := by decide
  rw [AsmLine.wellFormed, AsmLine.wellFormed, halpha, Bool.and_true]

theorem wellFormed_enc_iff {r g b a : Literal} :
    AsmLine.wellFormed (.enc r g b a) = true ↔ ∃ i, lineInstr (.enc r g b a) = some i := by
  simp only [AsmLine.wellFormed, Bool.and_eq_true, fits_iff, lineInstr_enc_eq_some_iff]
  constructor
  · rintro ⟨⟨⟨⟨r8, hr⟩, g8, hg⟩, b8, hb⟩, a8, ha⟩
    exact ⟨_, r8, g8, b8, a8, hr, hg, hb, ha, rfl⟩
  · rintro ⟨-, r8, g8, b8, a8, hr, hg, hb, ha, -⟩
    exact ⟨⟨⟨⟨r8, hr⟩, g8, hg⟩, b8, hb⟩, a8, ha⟩

/-- The well-formed lines are those that have an operation. -/
theorem wellFormed_iff {l : AsmLine} : l.wellFormed = true ↔ ∃ i, lineInstr l = some i := by
  cases l with
  | enc r g b a => exact wellFormed_enc_iff
  | enc3 r g b => rw [wellFormed_enc3, lineInstr_enc3, wellFormed_enc_iff]
  | encRaw p => simp [AsmLine.wellFormed, fits_iff, lineInstr]
  | dec p => simp [AsmLine.wellFormed, fits_iff, lineInstr]

theorem lineInstr_of_not_wellFormed {l : AsmLine} (h : l.wellFormed = false) : lineInstr l = none := by
  rw [Option.eq_none_iff_forall_ne_some]
  exact fun i hi => Bool.false_ne_true (h.symm.trans (wellFormed_iff.2 ⟨i, hi⟩))

/-- A literal without a digit fits no field (log 14). -/
theorem literalField_of_no_digit (n : Nat) {l : Literal} (h : l = .decimal [] ∨ l = .hex []) :
    literalField n l = none := by
  rcases h with rfl | rfl <;> rfl

/-- The two lines with one pixel operand, at a literal that is no pixel. -/
theorem assemble_pixel_of_literalField_none {p : Literal} (h : literalField 16 p = none) :
    assemble (.encRaw p) = .error .literalOutOfRange ∧ assemble (.dec p) = .error .literalOutOfRange :=
  ⟨assemble_of_lineInstr_none (by rw [lineInstr, h, Option.map_none]),
    assemble_of_lineInstr_none (by rw [lineInstr, h, Option.map_none])⟩

end Sys2Proof.Machine
end

section
/-! SUPPORT. One operation executed, and one request word met, in every state: what changes and what stays (R28, R57,
R73). -/

namespace Sys2Proof.Machine

/-! ### A refused request word (R31, R57) -/

section

variable {w : RequestWord} {e : DecodeError}

theorem encSlot_of_decode_error (h : decode w = .error e) : (Stimulus.request w).encSlot = none := by
  simp only [Stimulus.encSlot, h]

theorem decSlot_of_decode_error (h : decode w = .error e) : (Stimulus.request w).decSlot = none := by
  simp only [Stimulus.decSlot, h]

theorem isRefused_of_decode_error (h : decode w = .error e) : (Stimulus.request w).isRefused = true := by
  simp [Stimulus.isRefused, opOf_of_decode_error h]

theorem presented_of_decode_error (h : decode w = .error e) (s : State) :
    presented (.request w) s = s.markRefusal.driveIdle := by
  simp only [presented, h]

end

/-- On a refused word a combinational block drives no data port, so its outputs stay as they were (log 2). -/
theorem step_outputs_of_refused_combinational {s t : State} {w : RequestWord} {e : DecodeError} (hs : s.latency = 0)
    (h : step s = .next t) (hnext : nextStimulus s = .request w) (hdecode : decode w = .error e) :
    t.encPix = s.encPix ∧ t.decOut = s.decOut := by
  have ht : t = s.dropStimulus.markRefusal.driveIdle := by
    rw [eq_presented_of_step_combinational hs h, hnext, presented_of_decode_error hdecode]
  have htlat : t.latency = 0 := (step_latency h).trans hs
  exact ⟨State.encPix_congr_combinational hs htlat (ht ▸ encOperand_driveIdle s.dropStimulus.markRefusal),
    State.decOut_congr_combinational hs htlat (ht ▸ decPix_driveIdle s.dropStimulus.markRefusal)⟩

/-- On a refused word a pipelined block takes an empty slot into each queue (log 5). -/
theorem step_pipes_of_refused {s t : State} {w : RequestWord} {e : DecodeError} (hs : 0 < s.latency)
    (h : step s = .next t) (hnext : nextStimulus s = .request w) (hdecode : decode w = .error e) :
    t.encPipe = pushSlot s.latency s.encPipe none ∧ t.decPipe = pushSlot s.latency s.decPipe none := by
  have hpipes := step_pipes hs h
  rwa [hnext, encSlot_of_decode_error hdecode, decSlot_of_decode_error hdecode, Stimulus.noReset, if_pos rfl,
    if_pos rfl] at hpipes

/-! ### One operation -/

/-- The step on a request word that decodes is its operation on the state without that stimulus. -/
theorem step_eq_exec {s : State} {w : RequestWord} {i : Instr} (h : nextStimulus s = .request w)
    (hdecode : decode w = .ok i) : step s = exec i s.dropStimulus :=
  (step_of_request h hdecode).trans (exec_eq_driven i s.dropStimulus).symm

theorem dropStimulus_of_driver {s : State} {x : Stimulus} {rest : List Stimulus} (h : s.driver = x :: rest) :
    s.dropStimulus = { s with driver := rest } := by
  rw [State.dropStimulus, h, List.tail_cons]

section

variable {s : State} (i : Instr)

/-- An operation on a combinational block leaves the model's bookkeeping as it was: there is no edge (R15). -/
theorem driven_clockEdge_of_combinational (hs : s.latency = 0) :
    (driven i s).clockEdge.encPipe = s.encPipe ∧ (driven i s).clockEdge.decPipe = s.decPipe ∧
      (driven i s).clockEdge.draws = s.draws ∧ (driven i s).clockEdge.boot = s.boot := by
  rw [State.clockEdge_of_combinational (by simpa using hs)]
  simp

theorem driven_clockEdge_counters (hs : 0 < s.latency) :
    (driven i s).clockEdge.draws = s.draws + 1 ∧ (driven i s).clockEdge.boot = bootAtEdge s.boot := by
  rw [State.clockEdge_of_accept (by simpa using hs) (driven_rst i s)]
  simp

/-- An operation on a pipelined block puts what it presents to each unit into that unit's queue: an operation never
resets (R73, log 19). -/
theorem driven_clockEdge_pipes (hs : 0 < s.latency) :
    (driven i s).clockEdge.encPipe = pushSlot s.latency s.encPipe (sampledEnc (driven i s).inputs) ∧
      (driven i s).clockEdge.decPipe = pushSlot s.latency s.decPipe (sampledDec (driven i s).inputs) := by
  rw [State.clockEdge_of_accept (by simpa using hs) (driven_rst i s)]
  simp

/-- An encoder operation on a combinational block leaves the decoder's outputs (log 2). -/
theorem driven_clockEdge_decOut (hs : s.latency = 0) (h : (driven i s).inputs.decPix = s.inputs.decPix) :
    (driven i s).clockEdge.decOut = s.decOut :=
  State.decOut_congr_combinational hs (by simpa using hs) (by rwa [State.clockEdge_inputs])

/-- A decoder operation on a combinational block leaves the encoder's output (log 2). -/
theorem driven_clockEdge_encPix (hs : s.latency = 0) (h : encOperand (driven i s).inputs = encOperand s.inputs) :
    (driven i s).clockEdge.encPix = s.encPix :=
  State.encPix_congr_combinational hs (by simpa using hs) (by rwa [State.clockEdge_inputs])

end

/-! ### Narrowing (R39) -/

theorem toNat_narrow (c : Channel) : (narrow c).toNat = c.toNat / 256 := by
  have hlt : c.toNat / 256 < 2 ^ 8 := Nat.div_lt_of_lt_mul c.isLt
  rw [narrow, BitVec.extractLsb'_toNat, Nat.shiftRight_eq_div_pow, Nat.mod_eq_of_lt hlt]

/-- A scaled channel is its byte twice, so either byte is the narrowed channel (R46). -/
theorem narrow_scale16_eq_lowByte (x : Byte) : narrow (scale16 x) = (scale16 x).extractLsb' 0 8 :=
  (narrow_scale16 x).trans (scale16_bytes x).2.symm

end Sys2Proof.Machine
end

section
/-! PROOFS. The remaining statements: decode and encode together, the assembler's lines, refusals, the frame of the
operations, narrowing (spec/30_encoding.md, spec/10_state.md, spec/40_encoder.md). -/

namespace Sys2Proof.Machine

/-- Settles O2: the word of an operation decodes to it, and a word that decodes is put together again from its fields,
the ignored ones as 0. -/
theorem decodeEncodeAgree : Obligations.DecodeEncodeAgree :=
  ⟨decode_encode_ok, fun _ _ => encode_of_decode_ok⟩

/-- Settles O6: the word decodes to an error, which the step marks while it gives each unit an empty slot and drives no
data port. -/
theorem reservedOpIsRefused : Obligations.ReservedOpIsRefused := by
  refine ⟨fun s rest payload hdriver => ?reserved, fun s rest x hdriver => ?ports⟩
  case reserved =>
    have hdecode := decode_reservedWord payload
    have hnext := nextStimulus_of_driver hdriver
    have hstep := step_eq_presented s
    refine ⟨requestOutcome_of_decode_error hdecode, _, hstep, ?mark, ?driver,
      fun hs => step_outputs_of_refused_combinational hs hstep hnext hdecode,
      fun hs => step_pipes_of_refused hs hstep hnext hdecode⟩
    case mark => rw [step_refusalMark hstep, hnext, isRefused_of_decode_error hdecode, Bool.or_true]
    case driver => rw [step_driver hstep, hdriver, List.tail_cons]
  case ports =>
    have hstep := step_eq_presented s
    refine ⟨_, hstep, ?_⟩
    rw [step_refusalMark hstep, nextStimulus_of_driver hdriver, Stimulus.isRefused, Bool.or_false]

/-- Settles O10: a line is well-formed where it has an operation, and a literal without a digit leaves it none. -/
theorem assemblerAcceptsWellFormedLines : Obligations.AssemblerAcceptsWellFormedLines := by
  refine ⟨fun l h => assemble_of_lineInstr_none (lineInstr_of_not_wellFormed h), fun l h => ?accepted,
    fun r g b a l hl hdigit => ?encNoDigit, fun p hdigit => ?pixelNoDigit⟩
  case accepted =>
    obtain ⟨i, hi⟩ := wellFormed_iff.1 h
    exact ⟨encode i, i, assemble_of_lineInstr_some hi, decode_encode_ok i, encode_and_ignoredBits i⟩
  case encNoDigit => exact assemble_of_lineInstr_none (lineInstr_enc_eq_none hl (literalField_of_no_digit 8 hdigit))
  case pixelNoDigit => exact assemble_pixel_of_literalField_none (literalField_of_no_digit 16 hdigit)

/-- Settles O28: an operation drives its own ports and lets one edge pass; what each unit samples there is its own
operand or nothing. -/
theorem operationsChangeOnlyTheirUnit : Obligations.OperationsChangeOnlyTheirUnit := by
  intro i s
  refine ⟨_, exec_eq_driven i s, by simp, by simp, by simp, by simp, driven_clockEdge_of_combinational i,
    driven_clockEdge_counters i, ?unit⟩
  cases i with
  | enc r g b a =>
    exact ⟨State.clockEdge_inputs _, fun hs => driven_clockEdge_decOut _ hs (decPix_driveEnc s r g b a),
      driven_clockEdge_pipes (.enc r g b a)⟩
  | encRaw p =>
    exact ⟨State.clockEdge_inputs _, fun hs => driven_clockEdge_decOut _ hs (decPix_driveEncRaw s p),
      driven_clockEdge_pipes (.encRaw p)⟩
  | dec p =>
    exact ⟨State.clockEdge_inputs _, fun hs => driven_clockEdge_encPix _ hs (encOperand_driveDec s p),
      fun hs => (driven_clockEdge_pipes (.dec p) hs).symm⟩

/-- Settles O1, by evaluating the decoder on the six words. -/
theorem decodeReadsTestVectors : Obligations.DecodeReadsTestVectors := by
  unfold Obligations.DecodeReadsTestVectors
  decide

/-- Settles O27: narrowing is a division by 256, and both bytes of a scaled channel are one byte. -/
theorem narrowingTakesTheHighByte : Obligations.NarrowingTakesTheHighByte :=
  ⟨toNat_narrow, fun _ =>
    ⟨narrow_scale16_eq_lowByte _, narrow_scale16_eq_lowByte _, narrow_scale16_eq_lowByte _⟩⟩

/-- Settles O29: the driver's next stimulus is the word, and the state without it has the rest to come. -/
theorem stepRunsDecodedInstruction : Obligations.StepRunsDecodedInstruction := by
  intro s w rest i hdriver hdecode
  rw [step_eq_exec (nextStimulus_of_driver hdriver) hdecode, dropStimulus_of_driver hdriver]

/-- Settles O30: the placed word stands at the head of the driver's list, and without it the state is the old one. -/
theorem fetchWordRunsNext : Obligations.FetchWordRunsNext := fun s nbits w i h =>
  stepRunsDecodedInstruction (s.withFetchWord nbits w) (tableWord nbits w) s.driver i (s.withFetchWord_driver nbits w)
    (decodeTableWord_eq_some_iff.1 h)

end Sys2Proof.Machine
end
